-- ==== Sys2Proof/Word.lean ====
section
/-! DEFINITION. The word types of SWSI's interface (spec/00_scope.md R11). -/

namespace Sys2Proof

/-- A bus word: every register access is 4 bytes wide (20_memory.md R52). -/
abbrev Word := BitVec 32

/-- One byte of the data buffer (10_state.md R25). -/
abbrev Byte := BitVec 8

/-- A 1-bit level, `false` low and `true` high (00_scope.md R11). -/
abbrev Level := Bool

end Sys2Proof
end

