-- ==== Sys2Proof/Config.lean ====
section
/-! DEFINITION. What an implementation of SWSI fixes (spec/00_scope.md R7, R8) and the values the spec leaves free. -/

namespace Sys2Proof

/-- The parameters of 00_scope.md R7 that an implementation chooses.
They are configuration, not state (10_state.md R23): State carries one record of them that no step changes.
[DESIGN CHOICE, notes/assumptions/1.md: safe] -/
structure Params where
  /-- `W`, the width of CNT in bits. -/
  cntWidth : Nat
  /-- `T_START_LOW_US`, the ticks the start signal holds the line low. -/
  startLowUs : Nat
  /-- `SWSI_BASE`, the bus address of the register window. -/
  base : Nat
  deriving DecidableEq, Repr

/-- 2^W, the number of values CNT takes. -/
def Params.cntRange (p : Params) : Nat := 2 ^ p.cntWidth

/-- The constraints of 00_scope.md R7 and R8, and the base's alignment (20_memory.md R50). -/
structure Params.Legal (p : Params) : Prop where
  width_ge : 16 ≤ p.cntWidth
  width_le : p.cntWidth ≤ 32
  startLow_ge : 18000 ≤ p.startLowUs
  startLow_le : p.startLowUs ≤ p.cntRange - 1
  base_aligned : p.base % 0x40 = 0

namespace Config

/-- `T_START_HIGH_US` (00_scope.md R7): the ticks the start signal drives the line high. -/
def startHighUs : Nat := 30

/-- `T_SAMPLE_US` (00_scope.md R7): the ticks from a detected rise to the sample. -/
def sampleUs : Nat := 40

/-- `N_BYTES` (00_scope.md R7). -/
def nBytes : Nat := 5

/-- `BITS_PER_BYTE` (00_scope.md R7). -/
def bitsPerByte : Nat := 8

/-- `N_BITS` (00_scope.md R7): the bits of one READ or CAPTURE. -/
def nBits : Nat := 40

/-- The size of the register window in bytes (20_memory.md R50). -/
def windowBytes : Nat := 0x40

/-- FREE VALUE: the level e(t) that ENV draws, "under no law" (41_pin_mux.md R120), for the draw of this number.
[DESIGN CHOICE, notes/assumptions/4.md: safe] -/
opaque envLevel : Nat → Level

/-- FREE VALUE: what HOST reads from DATA[j] while the bit loop runs, "`any value`" (10_state.md R37, U3).
The first argument is the number of the draw, the second is j.
[DESIGN CHOICE, notes/assumptions/6.md: safe] -/
opaque captureRead : Nat → Nat → Word

/-- FREE VALUE: SWSI_BASE in units of 0x40; the base is OPEN (20_memory.md R50, U16).
[DESIGN CHOICE, notes/assumptions/18.md: safe] -/
opaque windowIndex : Nat

/-- The defaults of 00_scope.md R7, at an open base. -/
def defaultParams : Params :=
  { cntWidth := 16, startLowUs := 18000, base := 0x40 * windowIndex }

end Config

end Sys2Proof
end

