-- ==== Sys2Proof/Syntax.lean ====
section
/-! DEFINITION. The commands of SWSI-1 (spec/30_encoding.md R71, R73), the assembler's lines (R77), the host statements (R78) and the
pseudo-instructions (R79). -/

namespace Sys2Proof

/-- A command of SWSI-1: one constructor per row of opcode_table.json.
A count is a number here; WellFormed holds it to the 16 bits of its field (R72, R77). -/
inductive Instr where
  /-- CFG_OUT (41_pin_mux.md R123). -/
  | cfgOut
  /-- CFG_IN (41_pin_mux.md R124). -/
  | cfgIn
  /-- WRITE #l (41_pin_mux.md R125). -/
  | write (l : Level)
  /-- SENSE (41_pin_mux.md R126). -/
  | sense
  /-- TIM_RESET (40_timer.md R104). -/
  | timReset
  /-- DELAY #n (40_timer.md R105). -/
  | delay (n : Nat)
  /-- WAIT_WHILE #l (43_edge_sampler.md R160). -/
  | waitWhile (l : Level)
  /-- START (42_start_signal.md R140). -/
  | start
  /-- CAPTURE (43_edge_sampler.md R162). -/
  | capture
  /-- READ (43_edge_sampler.md R167). -/
  | read
  deriving DecidableEq, Repr

/-- The mnemonics of 30_encoding.md R71. -/
inductive Mnemonic where
  | cfgOut | cfgIn | write | sense | timReset | delay | waitWhile | start | capture | read
  deriving DecidableEq, Repr

/-- One line of assembler: a mnemonic and at most one immediate operand (30_encoding.md R77). -/
structure AsmLine where
  mnemonic : Mnemonic
  immediate : Option Nat
  deriving DecidableEq, Repr

/-- The registers an `RD` statement may name (30_encoding.md R78). -/
inductive ReadReg where
  | status
  | cnt
  | data (j : Fin 5)
  deriving DecidableEq, Repr

/-- A host statement (30_encoding.md R78). -/
inductive HostStmt where
  /-- `<cmd>`: issue the command, then poll. -/
  | cmd (i : Instr)
  /-- `ISSUE <cmd>`: write the command's word, with no wait. -/
  | issue (i : Instr)
  /-- `WRCMD w`: write any word to CMD, illegal words included. -/
  | wrcmd (w : Word)
  /-- `POLL`: read STATUS until BUSY = 0. -/
  | poll
  /-- `CLRERR`: write 0x00000010 to STATUS. -/
  | clrerr
  /-- `RD <reg> -> v`: read a register. -/
  | rd (r : ReadReg)
  deriving DecidableEq, Repr

/-- A pseudo-instruction (30_encoding.md R79). -/
inductive Pseudo where
  | drive (l : Level)
  | release
  | untilHigh
  | untilLow
  | startManual
  | readSplit
  deriving DecidableEq, Repr

end Sys2Proof
end

