-- ==== Sys2Proof/WellFormed.lean ====
section
/-! DEFINITION. Which commands have an encoding (spec/30_encoding.md R72, R77): a count is 0 to 65535. -/

namespace Sys2Proof

/-- "An immediate outside its range is refused by the assembler" (30_encoding.md R77): a count fits the 16 bits of US (R72). -/
def Instr.wf : Instr → Bool
  | .cfgOut => true
  | .cfgIn => true
  | .write _ => true
  | .sense => true
  | .timReset => true
  | .delay n => decide (n ≤ 65535)
  | .waitWhile _ => true
  | .start => true
  | .capture => true
  | .read => true

end Sys2Proof
end

