-- ==== Sys2Proof/Decode.lean ====
section
/-! DEFINITION. The command decoder (spec/30_encoding.md R70, R72-R76, R80), the encoder written from the table of R73, and the assembler's
forms (R77). -/

namespace Sys2Proof

/-! ### The fields of format C32 (R70) -/

/-- OP, bits 3:0. -/
def opField (w : Word) : BitVec 4 := w.extractLsb' 0 4

/-- L, bit 4. -/
def levelField (w : Word) : Level := w.getLsbD 4

/-- RSV, bits 15:5. -/
def rsvField (w : Word) : BitVec 11 := w.extractLsb' 5 11

/-- US, bits 31:16. -/
def usField (w : Word) : BitVec 16 := w.extractLsb' 16 16

/-! ### Decoding (R80) -/

/-- Why a word is illegal: the three cases of 30_encoding.md R74. -/
inductive Illegal where
  /-- OP = 0x0 or OP >= 0xB. -/
  | opcode
  /-- RSV != 0. -/
  | reserved
  /-- L or US is not 0 where R73 requires 0. -/
  | operand
  deriving DecidableEq, Repr

/-- What a word decodes to: "one command or ILLEGAL" (30_encoding.md R80). -/
inductive Decoded where
  | cmd (i : Instr)
  | illegal (why : Illegal)
  deriving DecidableEq, Repr

/-- The command, where there is one. -/
def Decoded.instr? : Decoded → Option Instr
  | .cmd i => some i
  | .illegal _ => none

/-- `cmd i` if the fields that must be 0 are 0, and ILLEGAL otherwise (R80's inner tests). -/
def requireZero (zero : Bool) (i : Instr) : Decoded :=
  if zero then .cmd i else .illegal .operand

/-- The decoder of 30_encoding.md R80: total on 32-bit words. -/
def decode (w : Word) : Decoded :=
  let l := levelField w
  let us := usField w
  if rsvField w ≠ 0 then .illegal .reserved
  else
    match (opField w).toNat with
    | 0x1 => requireZero (!l && us == 0) .cfgOut
    | 0x2 => requireZero (!l && us == 0) .cfgIn
    | 0x3 => requireZero (us == 0) (.write l)
    | 0x4 => requireZero (!l && us == 0) .sense
    | 0x5 => requireZero (!l && us == 0) .timReset
    | 0x6 => requireZero (!l) (.delay us.toNat)
    | 0x7 => requireZero (us == 0) (.waitWhile l)
    | 0x8 => requireZero (!l && us == 0) .start
    | 0x9 => requireZero (!l && us == 0) .capture
    | 0xA => requireZero (!l && us == 0) .read
    | _ => .illegal .opcode

/-- The command that latched fields stand for, by OP alone: the tick step's `case CUR.OP of` (40_timer.md R100).
Each command reads the operand it uses and no other. -/
def instrOfFields (op : BitVec 4) (l : Level) (us : BitVec 16) : Option Instr :=
  match op.toNat with
  | 0x1 => some .cfgOut
  | 0x2 => some .cfgIn
  | 0x3 => some (.write l)
  | 0x4 => some .sense
  | 0x5 => some .timReset
  | 0x6 => some (.delay us.toNat)
  | 0x7 => some (.waitWhile l)
  | 0x8 => some .start
  | 0x9 => some .capture
  | 0xA => some .read
  | _ => none

/-- The host's reading of a table word: the low `nbits` bits are given, the bits above are 0.
SWSI's words are single 32-bit bus words (R76). -/
def decodeTableWord (nbits w : Nat) : Option Instr :=
  (decode (BitVec.ofNat 32 (w % 2 ^ nbits))).instr?

/-! ### Encoding (R73, R77) -/

/-- The row of 30_encoding.md R73 that a command stands in. -/
def Instr.mnemonic : Instr → Mnemonic
  | .cfgOut => .cfgOut
  | .cfgIn => .cfgIn
  | .write _ => .write
  | .sense => .sense
  | .timReset => .timReset
  | .delay _ => .delay
  | .waitWhile _ => .waitWhile
  | .start => .start
  | .capture => .capture
  | .read => .read

/-- The `match` column of 30_encoding.md R73. -/
def Mnemonic.matchWord : Mnemonic → Word
  | .cfgOut => 0x00000001
  | .cfgIn => 0x00000002
  | .write => 0x00000003
  | .sense => 0x00000004
  | .timReset => 0x00000005
  | .delay => 0x00000006
  | .waitWhile => 0x00000007
  | .start => 0x00000008
  | .capture => 0x00000009
  | .read => 0x0000000A

/-- The `mask` column of 30_encoding.md R73. -/
def Mnemonic.maskWord : Mnemonic → Word
  | .cfgOut => 0xFFFFFFFF
  | .cfgIn => 0xFFFFFFFF
  | .write => 0xFFFFFFEF
  | .sense => 0xFFFFFFFF
  | .timReset => 0xFFFFFFFF
  | .delay => 0x0000FFFF
  | .waitWhile => 0xFFFFFFEF
  | .start => 0xFFFFFFFF
  | .capture => 0xFFFFFFFF
  | .read => 0xFFFFFFFF

/-- The ten mnemonics in the order of their opcodes (R71). -/
def Mnemonic.all : List Mnemonic :=
  [.cfgOut, .cfgIn, .write, .sense, .timReset, .delay, .waitWhile, .start, .capture, .read]

/-- The level operand, 0 for a command that has none. -/
def Instr.levelOperand : Instr → Level
  | .cfgOut => false
  | .cfgIn => false
  | .write l => l
  | .sense => false
  | .timReset => false
  | .delay _ => false
  | .waitWhile l => l
  | .start => false
  | .capture => false
  | .read => false

/-- The count operand, 0 for a command that has none. -/
def Instr.countOperand : Instr → Nat
  | .cfgOut => 0
  | .cfgIn => 0
  | .write _ => 0
  | .sense => 0
  | .timReset => 0
  | .delay n => n
  | .waitWhile _ => 0
  | .start => 0
  | .capture => 0
  | .read => 0

/-- `enc(c)`, "`match | (l << 4) | (n << 16)`" (30_encoding.md R77). -/
def encode (i : Instr) : Word :=
  i.mnemonic.matchWord ||| (BitVec.ofNat 32 i.levelOperand.toNat <<< 4) ||| (BitVec.ofNat 32 i.countOperand <<< 16)

/-! ### The assembler (R77) -/

/-- A level operand is written `#0` or `#1`. -/
def assembleLevel (f : Level → Instr) : Nat → Option Instr
  | 0 => some (f false)
  | 1 => some (f true)
  | _ => none

/-- The assembler of 30_encoding.md R77: the ten forms, an immediate outside its range refused. -/
def assemble (a : AsmLine) : Option Instr :=
  match a.mnemonic, a.immediate with
  | .cfgOut, none => some .cfgOut
  | .cfgIn, none => some .cfgIn
  | .write, some n => assembleLevel .write n
  | .sense, none => some .sense
  | .timReset, none => some .timReset
  | .delay, some n => if n ≤ 65535 then some (.delay n) else none
  | .waitWhile, some n => assembleLevel .waitWhile n
  | .start, none => some .start
  | .capture, none => some .capture
  | .read, none => some .read
  | _, _ => none

/-- The assembler line of a command. -/
def Instr.asmLine : Instr → AsmLine
  | .cfgOut => ⟨.cfgOut, none⟩
  | .cfgIn => ⟨.cfgIn, none⟩
  | .write l => ⟨.write, some l.toNat⟩
  | .sense => ⟨.sense, none⟩
  | .timReset => ⟨.timReset, none⟩
  | .delay n => ⟨.delay, some n⟩
  | .waitWhile l => ⟨.waitWhile, some l.toNat⟩
  | .start => ⟨.start, none⟩
  | .capture => ⟨.capture, none⟩
  | .read => ⟨.read, none⟩

end Sys2Proof
end

