-- ==== Sys2Proof/Machine/State.lean ====
section
/-! DEFINITION. The state of SWSI (spec/10_state.md R20), the other agents' side of a run (spec/00_scope.md R9, R10), the reasons a
step can stop, and the state after reset (spec/70_reset_and_hazards.md R230). -/

namespace Sys2Proof.Machine

/-- MODE (10_state.md R21): "MODE has no other values". -/
inductive Mode where
  /-- 0, IN: floating input. -/
  | input
  /-- 1, OUT: push-pull output. -/
  | output
  deriving DecidableEq, Repr

/-- ERRCAUSE (10_state.md R29). Code 3 is "reserved and never produced" (U11), so it has no constructor.
[DESIGN CHOICE, notes/assumptions/13.md: safe] -/
inductive ErrCause where
  /-- 0: none. -/
  | noError
  /-- 1: the command word is not a legal encoding. -/
  | illegal
  /-- 2: a command was written while BUSY = 1. -/
  | busy
  deriving DecidableEq, Repr

/-- PHASE (10_state.md R31), codes 0 to 8. "Codes 9 to 15 are never held", so they have no constructor.
[DESIGN CHOICE, notes/assumptions/13.md: safe] -/
inductive Phase where
  | idle
  | issue
  | delayWait
  | levelWait
  | startLow
  | startHigh
  | capWaitLow
  | capDelay
  | capWaitHigh
  deriving DecidableEq, Repr

/-- CUR (10_state.md R33): the fields of the accepted command word. -/
structure Cur where
  op : BitVec 4
  l : Level
  us : BitVec 16
  deriving DecidableEq, Repr

/-- One bus access of HOST, at an absolute bus address and of a size in bytes (20_memory.md R52). -/
inductive Access where
  | read (addr size : Nat)
  | write (addr size : Nat) (v : Word)
  deriving DecidableEq, Repr

/-- One register access of a host program, at an offset from SWSI_BASE (30_encoding.md R78). -/
inductive HostOp where
  /-- `MemWrite(SWSI_BASE + off, 4, v)`. -/
  | write (off : Nat) (v : Word)
  /-- `v <- MemRead(SWSI_BASE + off, 4)`, the value kept. -/
  | read (off : Nat)
  /-- `repeat s <- MemRead(SWSI_BASE + 0x04, 4) until s[0] == 0`. -/
  | poll
  deriving DecidableEq, Repr

/-- One step of a run (00_scope.md R10). -/
inductive Turn where
  /-- `HostAccess(a)`. -/
  | access (a : Access)
  /-- `HostAccess(a)` where a is the next access of HOST's program (30_encoding.md R78). -/
  | program
  /-- `Tick(e)`: with the level given, or, where it is not, with a free draw of ENV (41_pin_mux.md R120). -/
  | tick (e : Option Level)
  /-- `Reset`. -/
  | reset
  deriving DecidableEq, Repr

/-- The machine. The fields down to `cur` are "the complete state of SWSI" (10_state.md R20).
The rest is the model's own: the parameters and the other agents' side of the run. -/
@[ext]
structure State where
  /-- MODE (R21). -/
  mode : Mode
  /-- OLAT, the output latch (R22). -/
  olat : Level
  /-- CNT, the microsecond counter (R24), a number below 2^W. [DESIGN CHOICE, notes/assumptions/2.md: safe] -/
  cnt : Nat
  /-- DATA[0..4] (R25). -/
  data : Vector Byte 5
  /-- BUSY (R27). -/
  busy : Bool
  /-- LEVEL, the level the last SENSE sampled (R28). -/
  level : Level
  /-- ERR (R29). -/
  err : Bool
  /-- ERRCAUSE (R29). -/
  errCause : ErrCause
  /-- OK (R30). -/
  ok : Bool
  /-- PHASE (R31). -/
  phase : Phase
  /-- I, BITIDX (R32). -/
  bitIdx : Fin 8
  /-- J, BYTEIDX (R32). -/
  byteIdx : Fin 5
  /-- CUR (R33). -/
  cur : Cur
  /-- The parameters (00_scope.md R7), never written. [DESIGN CHOICE, notes/assumptions/1.md: safe] -/
  params : Params
  /-- e(t) of the tick in progress (41_pin_mux.md R120). [DESIGN CHOICE, notes/assumptions/4.md: safe] -/
  env : Level
  /-- The number of the next free draw. [DESIGN CHOICE, notes/assumptions/5.md: safe] -/
  draws : Nat
  /-- The steps of the run still to come (00_scope.md R10). [DESIGN CHOICE, notes/assumptions/3.md: safe] -/
  turns : List Turn
  /-- The accesses HOST's program still has to make (30_encoding.md R78). [DESIGN CHOICE, notes/assumptions/11.md: safe] -/
  program : List HostOp
  /-- What the last admitted register read gave HOST. [DESIGN CHOICE, notes/assumptions/12.md: unsafe at reset] -/
  rdata : Word
  /-- What the program's `RD` statements have read, oldest first. [DESIGN CHOICE, notes/assumptions/12.md: unsafe at reset] -/
  vars : List Word
  deriving DecidableEq, Repr

/-- Nothing in SWSI stops the machine with a fault: a command error is a next state (60_exceptions.md R201, R209) and a hang is
"neither a fault nor a stuck state" (R205). No step raises one, so there is no constructor. Safe. -/
inductive Fault where
  deriving DecidableEq, Repr

/-- The steps SWSI does not have. -/
inductive Refusal where
  /-- An arm of exec that has no meaning yet. No step raises it: every command has its meaning. Safe. -/
  | notModelled (mnemonic : String)
  /-- HOST makes an access that is not 4 bytes wide: "refused, and the model gives it no step" (20_memory.md R52). Safe. -/
  | accessSize
  /-- HOST makes an access outside the register window: refused (20_memory.md R52). Safe. -/
  | accessWindow
  /-- HOST makes an access at an offset that is not a multiple of 4: refused (20_memory.md R52). Safe. -/
  | accessAlignment
  /-- A tick in PHASE = ISSUE finds a CUR.OP that is no command's: 40_timer.md R100 has no arm for it, and no run reaches it,
  since acceptance latches legal words only (30_encoding.md R81). [DEDUCED, notes/assumptions/9.md: safe] -/
  | issueOpcode
  deriving DecidableEq, Repr

/-- The next state, where there is one. -/
def nextState? : Host.Outcome State Fault Refusal → Option State
  | .next s => some s
  | .fault _ => none
  | .refused _ => none

/-- The machine right after reset (70_reset_and_hazards.md R230), with the default parameters (00_scope.md R7), no step yet to come
and no host program.
[DESIGN CHOICE for the model's own fields from `env` on: notes/assumptions/3.md, 4.md, 5.md, 11.md, 12.md] -/
def State.reset : State where
  mode := .input
  olat := false
  cnt := 0
  data := Vector.replicate 5 0x00
  busy := false
  level := false
  err := false
  errCause := .noError
  ok := false
  phase := .idle
  bitIdx := 0
  byteIdx := 0
  cur := { op := 0, l := false, us := 0 }
  params := Config.defaultParams
  env := false
  draws := 0
  turns := []
  program := []
  rdata := 0
  vars := []

end Sys2Proof.Machine
end

