-- ==== Sys2Proof/Machine/Operands.lean ====
section
/-! DEFINITION. What the arms of a tick read: the operands latched in CUR (spec/30_encoding.md R72), the line (spec/41_pin_mux.md R120)
and the incremented counter (spec/40_timer.md R101); and the codes of the enumerated fields (spec/10_state.md R29, R31). -/

namespace Sys2Proof.Machine

/-- CUR as acceptance latches it: "CUR.OP <- w[3:0]; CUR.L <- w[4]; CUR.US <- w[31:16]" (30_encoding.md R81). -/
def Cur.ofWord (w : Word) : Cur :=
  { op := opField w, l := levelField w, us := usField w }

/-- The accepted command, by CUR.OP (40_timer.md R100). -/
def Cur.instr? (c : Cur) : Option Instr := instrOfFields c.op c.l c.us

/-- `zext_W(CUR.US)` (30_encoding.md R72), as a number: W >= 16, so no bit is lost. -/
def Cur.count (c : Cur) : Nat := c.us.toNat

/-- Whether CUR.OP is READ's opcode (42_start_signal.md R142). -/
def Cur.isRead (c : Cur) : Bool := c.op == 0xA

/-- LINE(t): OLAT while MODE = OUT, e(t) while MODE = IN (41_pin_mux.md R120).
The driver wins any contention (R128). [DEDUCED, notes/assumptions/17.md: unsafe for a real pad under contention] -/
def State.line (s : State) : Level :=
  match s.mode with
  | .output => s.olat
  | .input => s.env

/-- `cnt`, "(CNT + 1) mod 2^W" (40_timer.md R100, R101). -/
def State.nextCnt (s : State) : Nat := (s.cnt + 1) % s.params.cntRange

/-- `pad_oe = MODE` (41_pin_mux.md R121). -/
def State.padOe (s : State) : Level :=
  match s.mode with
  | .output => true
  | .input => false

/-- `pad_o = OLAT` (41_pin_mux.md R121). -/
def State.padO (s : State) : Level := s.olat

/-- The bit of MODE (10_state.md R20). -/
def Mode.bit : Mode → BitVec 1
  | .input => 0
  | .output => 1

/-- The code of ERRCAUSE (10_state.md R29). -/
def ErrCause.code : ErrCause → BitVec 2
  | .noError => 0
  | .illegal => 1
  | .busy => 2

/-- The code of PHASE (10_state.md R31). -/
def Phase.code : Phase → BitVec 4
  | .idle => 0
  | .issue => 1
  | .delayWait => 2
  | .levelWait => 3
  | .startLow => 4
  | .startHigh => 5
  | .capWaitLow => 6
  | .capDelay => 7
  | .capWaitHigh => 8

/-- The phases of the bit loop: CAP_WAITLOW, CAP_DELAY and CAP_WAITHIGH (10_state.md R31). -/
def Phase.inBitLoop : Phase → Bool
  | .idle => false
  | .issue => false
  | .delayWait => false
  | .levelWait => false
  | .startLow => false
  | .startHigh => false
  | .capWaitLow => true
  | .capDelay => true
  | .capWaitHigh => true

end Sys2Proof.Machine
end

