-- ==== Sys2Proof/Machine/Flags.lean ====
section
/-! DEFINITION. The fields of STATUS (spec/10_state.md R34) and the actions that write the flags: completion (spec/40_timer.md R102), the
success indicator (spec/43_edge_sampler.md R168) and acceptance (spec/30_encoding.md R81). -/

namespace Sys2Proof.Machine

/-- What a STATUS read returns: "{13'b0, J, 1'b0, I, PHASE, OK, ERRCAUSE, ERR, OLAT, MODE, LEVEL, BUSY}" (10_state.md R34). -/
def State.statusWord (s : State) : Word :=
  0#13 ++ BitVec.ofNat 3 s.byteIdx.val ++ 0#1 ++ BitVec.ofNat 3 s.bitIdx.val ++ s.phase.code ++ BitVec.ofBool s.ok
    ++ s.errCause.code ++ BitVec.ofBool s.err ++ BitVec.ofBool s.olat ++ s.mode.bit ++ BitVec.ofBool s.level ++ BitVec.ofBool s.busy

/-- `Complete()`: "BUSY <- 0; PHASE <- IDLE" (40_timer.md R102). -/
def State.complete (s : State) : State :=
  { s with busy := false, phase := .idle }

/-- "OK <- 1; Complete()" (43_edge_sampler.md R166, R168). -/
def State.completeOk (s : State) : State :=
  { s with ok := true, busy := false, phase := .idle }

/-- The writes of acceptance: CUR latched, BUSY <- 1, OK <- 0, PHASE <- ISSUE (30_encoding.md R81). -/
def State.accept (s : State) (w : Word) : State :=
  { s with cur := Cur.ofWord w, busy := true, ok := false, phase := .issue }

end Sys2Proof.Machine
end

