-- ==== Sys2Proof/Machine/Ops.lean ====
section
/-! DEFINITION. The operations the steps share: the command error and its clearing (spec/60_exceptions.md R201, R210), the counter
(spec/40_timer.md R101), the data buffer (spec/43_edge_sampler.md R165), the register window (spec/20_memory.md R51-R55) and reset
(spec/70_reset_and_hazards.md R230). -/

namespace Sys2Proof.Machine

/-! ### The exception -/

/-- `raise CmdError(cause)`: "if ERR == 0 then ERR <- 1; ERRCAUSE <- cause", and nothing else (60_exceptions.md R201).
It is the only exception SWSI has: no vector, no saved state, no mode change (R209). -/
def State.cmdError (s : State) (cause : ErrCause) : State :=
  if s.err then s else { s with err := true, errCause := cause }

/-- Clearing the error, "which takes the place of trap return" (60_exceptions.md R210): "ERR <- 0 and ERRCAUSE <- 0". -/
def State.clearErr (s : State) : State :=
  { s with err := false, errCause := .noError }

/-! ### The counter -/

/-- The default write of every tick: "CNT <- cnt" (40_timer.md R100, R101). -/
def State.count (s : State) : State :=
  { s with cnt := s.nextCnt }

/-! ### The data buffer -/

/-- `b` with the bit at `pos` written to `v`: a 1 sets it and a 0 clears it (43_edge_sampler.md R165). -/
def writeBit (b : Byte) (pos : Nat) (v : Level) : Byte :=
  if v then b ||| (1#8 <<< pos) else b &&& ~~~(1#8 <<< pos)

/-- "DATA[J][7 - I] <- v" (43_edge_sampler.md R165). -/
def State.storeBit (s : State) (v : Level) : State :=
  { s with data := s.data.set s.byteIdx.val (writeBit s.data[s.byteIdx.val] (7 - s.bitIdx.val) v) }

/-- `BeginCapture()`: "J <- 0; I <- 0; PHASE <- CAP_WAITLOW" (43_edge_sampler.md R163). -/
def State.beginCapture (s : State) : State :=
  { s with byteIdx := 0, bitIdx := 0, phase := .capWaitLow }

/-- Whether the bit being received is the 40th: J = 4 and I = 7 (43_edge_sampler.md R166). -/
def State.lastBit (s : State) : Bool := s.byteIdx.val == 4 && s.bitIdx.val == 7

/-- The advance to the next bit: "if I == 7 then J <- J + 1; I <- 0 else I <- I + 1; PHASE <- CAP_WAITLOW" (43_edge_sampler.md R166).
It runs only where the bit is not the last, so J + 1 is at most 4. -/
def State.advanceBit (s : State) : State :=
  if s.bitIdx.val == 7 then { s with byteIdx := s.byteIdx + 1, bitIdx := 0, phase := .capWaitLow }
  else { s with bitIdx := s.bitIdx + 1, phase := .capWaitLow }

/-- "MODE <- 1; OLAT <- 0; CNT <- 0; PHASE <- START_LOW", the issue actions START and READ share (42_start_signal.md R140). -/
def State.beginStart (s : State) : State :=
  { s with mode := .output, olat := false, cnt := 0, phase := .startLow }

/-! ### The register window (20_memory.md R51) -/

/-- Where an access falls: its offset from SWSI_BASE, or why it is refused (20_memory.md R52).
[DESIGN CHOICE, notes/assumptions/8.md: safe] -/
inductive Admission where
  | admitted (off : Nat)
  | refused (r : Refusal)
  deriving DecidableEq, Repr

/-- An offset is admitted inside the window, at a multiple of 4 (20_memory.md R52). -/
def admitOffset (off : Nat) : Admission :=
  if Config.windowBytes ≤ off then .refused .accessWindow
  else if off % 4 ≠ 0 then .refused .accessAlignment
  else .admitted off

/-- "The only admitted access is a 4-byte access at an offset that is a multiple of 4" (20_memory.md R52). -/
def State.admission (s : State) (addr size : Nat) : Admission :=
  if size ≠ 4 then .refused .accessSize
  else if addr < s.params.base then .refused .accessWindow
  else admitOffset (addr - s.params.base)

/-- What a read of DATA[j] returns: `zext_32(DATA[j])`, and "`any value`" while BUSY = 1 in the bit loop (10_state.md R37).
[DESIGN CHOICE, notes/assumptions/6.md: safe; DEDUCED, 7.md: unsafe if R244 is read broadly] -/
def State.readData (s : State) (j : Fin 5) : Word :=
  if s.busy && s.phase.inBitLoop then Config.captureRead s.draws j.val
  else s.data[j.val].zeroExtend 32

/-- The value at an admitted offset (20_memory.md R51, R53; 10_state.md R34-R37): CMD and the reserved offsets read 0. -/
def State.readReg (s : State) (off : Nat) : Word :=
  match off with
  | 0x04 => s.statusWord
  | 0x08 => BitVec.ofNat 32 s.cnt
  | 0x0C => s.readData 0
  | 0x10 => s.readData 1
  | 0x14 => s.readData 2
  | 0x18 => s.readData 3
  | 0x1C => s.readData 4
  | _ => 0x00000000

/-- Command acceptance (30_encoding.md R81): BUSY is checked before the word is decoded (60_exceptions.md R204). -/
def State.writeCmd (s : State) (w : Word) : State :=
  if s.busy then s.cmdError .busy
  else
    match decode w with
    | .illegal _ => s.cmdError .illegal
    | .cmd _ => s.accept w

/-- The side effect of a write at an admitted offset (20_memory.md R55): CMD accepts, STATUS bit 4 clears the error, all else ignores. -/
def State.writeReg (s : State) (off : Nat) (v : Word) : State :=
  match off with
  | 0x00 => s.writeCmd v
  | 0x04 => if v.getLsbD 4 then s.clearErr else s
  | _ => s

/-- The step of an admitted read: SWSI is untouched, since "a register read has no side effect" (20_memory.md R54); HOST has the value. -/
def State.hostRead (s : State) (off : Nat) : State :=
  { s with rdata := s.readReg off }

/-- The step of an admitted write. It ends the stretch over which a free value is held. [DESIGN CHOICE, notes/assumptions/5.md: safe] -/
def State.hostWrite (s : State) (off : Nat) (v : Word) : State :=
  { s.writeReg off v with draws := s.draws + 1 }

/-! ### Reset -/

/-- Every element of 10_state.md R20 at its reset value (70_reset_and_hazards.md R230). The other agents' side of the run stays.
[DESIGN CHOICE, notes/assumptions/19.md: safe] -/
def State.applyReset (s : State) : State :=
  { s with
    mode := .input
    olat := false
    cnt := 0
    data := Vector.replicate 5 0x00
    busy := false
    level := false
    err := false
    errCause := .noError
    ok := false
    phase := .idle
    bitIdx := 0
    byteIdx := 0
    cur := { op := 0, l := false, us := 0 }
    draws := s.draws + 1 }

end Sys2Proof.Machine
end

