-- ==== Sys2Proof/Machine/Sequencer.lean ====
section
/-! DEFINITION. The arms of the tick step, one per PHASE (spec/40_timer.md R100). Each takes the state at the start of the tick and gives
the state at its end: it reads LINE(t) and the incremented counter of the start state, and all its writes land at once. -/

namespace Sys2Proof.Machine

/-- The IDLE arm: "skip" (40_timer.md R100); the counter counts. -/
def idleArm (s : State) : State := s.count

/-- The DELAY_WAIT arm for a count n (40_timer.md R105): "if cnt >= zext_W(CUR.US) then Complete()". -/
def delayWaitArm (n : Nat) (s : State) : State :=
  if n ≤ s.nextCnt then s.count.complete else s.count

/-- The LEVEL_WAIT arm for a level l (43_edge_sampler.md R161): "if lvl != CUR.L then Complete()". -/
def levelWaitArm (l : Level) (s : State) : State :=
  if s.line ≠ l then s.count.complete else s.count

/-- The START_LOW arm (42_start_signal.md R141). -/
def startLowArm (s : State) : State :=
  if s.params.startLowUs ≤ s.nextCnt then { s with olat := true, cnt := 0, phase := .startHigh } else s.count

/-- The START_HIGH arm (42_start_signal.md R142): the line is released, and READ goes on to its bit loop. -/
def startHighArm (s : State) : State :=
  if Config.startHighUs ≤ s.nextCnt then
    let released : State := { s.count with mode := .input }
    if s.cur.isRead then released.beginCapture else released.complete
  else s.count

/-- The CAP_WAITLOW arm (43_edge_sampler.md R164), with SAMPLE_SLACK = 0.
[DESIGN CHOICE, notes/assumptions/16.md: safe for SWSI, unsafe for the software original] -/
def capWaitLowArm (s : State) : State :=
  if s.line then { s with cnt := 0, phase := .capDelay } else s.count

/-- The CAP_DELAY arm (43_edge_sampler.md R165). -/
def capDelayArm (s : State) : State :=
  if Config.sampleUs ≤ s.nextCnt then { s.count.storeBit s.line with phase := .capWaitHigh } else s.count

/-- The CAP_WAITHIGH arm (43_edge_sampler.md R166). -/
def capWaitHighArm (s : State) : State :=
  if s.line then s.count
  else if s.lastBit then s.count.completeOk
  else s.count.advanceBit

/-- One tick of SEQ with the given issue actions: "exactly one arm chosen by PHASE" (40_timer.md R100).
The waits read their operands from CUR. -/
def sequencerTick (issue : State → State) (s : State) : State :=
  match s.phase with
  | .idle => idleArm s
  | .issue => issue s
  | .delayWait => delayWaitArm s.cur.count s
  | .levelWait => levelWaitArm s.cur.l s
  | .startLow => startLowArm s
  | .startHigh => startHighArm s
  | .capWaitLow => capWaitLowArm s
  | .capDelay => capDelayArm s
  | .capWaitHigh => capWaitHighArm s

end Sys2Proof.Machine
end

