-- ==== Sys2Proof/Machine/EdgeSampler.lean ====
section
/-! DEFINITION. The edge sampler's commands (spec/43_edge_sampler.md): WAIT_WHILE, CAPTURE and READ. A meaning is one tick of SEQ while
the command is current: the issue actions, then the arms of the command's phases. -/

namespace Sys2Proof.Machine

/-- WAIT_WHILE's issue actions: "PHASE <- LEVEL_WAIT"; the line is not examined (43_edge_sampler.md R160). -/
def issueWaitWhile (s : State) : State :=
  { s.count with phase := .levelWait }

/-- One tick of SEQ while WAIT_WHILE #l is current: its own wait is on l, the CUR.L of its acceptance (30_encoding.md R81). -/
def waitWhileTick (l : Level) (s : State) : State :=
  if s.phase = .levelWait then levelWaitArm l s else sequencerTick issueWaitWhile s

/-- WAIT_WHILE #l (43_edge_sampler.md R160, R161). -/
def execWaitWhile (l : Level) (s : State) : Host.Outcome State Fault Refusal :=
  .next (waitWhileTick l s)

/-- CAPTURE's issue actions: `BeginCapture()` (43_edge_sampler.md R162); CNT is not zeroed (40_timer.md R103). -/
def issueCapture (s : State) : State := s.count.beginCapture

/-- CAPTURE (43_edge_sampler.md R162-R166). -/
def execCapture (s : State) : Host.Outcome State Fault Refusal :=
  .next (sequencerTick issueCapture s)

/-- READ's issue actions: those of START (43_edge_sampler.md R167). -/
def issueRead (s : State) : State := s.beginStart

/-- READ (43_edge_sampler.md R167): the start signal, then the bit loop. -/
def execRead (s : State) : Host.Outcome State Fault Refusal :=
  .next (sequencerTick issueRead s)

end Sys2Proof.Machine
end

