-- ==== Sys2Proof/Machine/PinMux.lean ====
section
/-! DEFINITION. The pin multiplexer's commands (spec/41_pin_mux.md): CFG_OUT, CFG_IN, WRITE and SENSE. A meaning is one tick of SEQ while
the command is current. -/

namespace Sys2Proof.Machine

/-- CFG_OUT's issue actions: "MODE <- 1; Complete()" (41_pin_mux.md R123). -/
def issueCfgOut (s : State) : State :=
  { s.count with mode := .output }.complete

/-- CFG_OUT (41_pin_mux.md R123). -/
def execCfgOut (s : State) : Host.Outcome State Fault Refusal :=
  .next (sequencerTick issueCfgOut s)

/-- CFG_IN's issue actions: "MODE <- 0; Complete()" (41_pin_mux.md R124). -/
def issueCfgIn (s : State) : State :=
  { s.count with mode := .input }.complete

/-- CFG_IN (41_pin_mux.md R124). -/
def execCfgIn (s : State) : Host.Outcome State Fault Refusal :=
  .next (sequencerTick issueCfgIn s)

/-- WRITE's issue actions: "OLAT <- CUR.L; Complete()" (41_pin_mux.md R125). -/
def issueWrite (l : Level) (s : State) : State :=
  { s.count with olat := l }.complete

/-- WRITE #l (41_pin_mux.md R125). -/
def execWrite (l : Level) (s : State) : Host.Outcome State Fault Refusal :=
  .next (sequencerTick (issueWrite l) s)

/-- SENSE's issue actions: "LEVEL <- lvl; Complete()" (41_pin_mux.md R126). -/
def issueSense (s : State) : State :=
  { s.count with level := s.line }.complete

/-- SENSE (41_pin_mux.md R126). -/
def execSense (s : State) : Host.Outcome State Fault Refusal :=
  .next (sequencerTick issueSense s)

end Sys2Proof.Machine
end

