-- ==== Sys2Proof/Machine/StartSignal.lean ====
section
/-! DEFINITION. The start-signal generator's command (spec/42_start_signal.md): START. A meaning is one tick of SEQ while the command is
current: the issue actions, then START_LOW, then START_HIGH. -/

namespace Sys2Proof.Machine

/-- START's issue actions (42_start_signal.md R140). -/
def issueStart (s : State) : State := s.beginStart

/-- START (42_start_signal.md R140-R142). -/
def execStart (s : State) : Host.Outcome State Fault Refusal :=
  .next (sequencerTick issueStart s)

end Sys2Proof.Machine
end

