-- ==== Sys2Proof/Machine/Timer.lean ====
section
/-! DEFINITION. The timer's commands (spec/40_timer.md): TIM_RESET and DELAY. A meaning is one tick of SEQ while the command is current. -/

namespace Sys2Proof.Machine

/-- TIM_RESET's issue actions: "CNT <- 0; Complete()" (40_timer.md R104). -/
def issueTimReset (s : State) : State :=
  { s with cnt := 0 }.complete

/-- TIM_RESET (40_timer.md R104). -/
def execTimReset (s : State) : Host.Outcome State Fault Refusal :=
  .next (sequencerTick issueTimReset s)

/-- DELAY's issue actions: "CNT <- 0; if zext_W(CUR.US) == 0 then Complete() else PHASE <- DELAY_WAIT" (40_timer.md R105). -/
def issueDelay (n : Nat) (s : State) : State :=
  if n = 0 then { s with cnt := 0 }.complete else { s with cnt := 0, phase := .delayWait }

/-- One tick of SEQ while DELAY #n is current: its own wait is for n, the CUR.US of its acceptance (30_encoding.md R81). -/
def delayTick (n : Nat) (s : State) : State :=
  if s.phase = .delayWait then delayWaitArm n s else sequencerTick (issueDelay n) s

/-- DELAY #n (40_timer.md R105). -/
def execDelay (n : Nat) (s : State) : Host.Outcome State Fault Refusal :=
  .next (delayTick n s)

end Sys2Proof.Machine
end

