-- ==== Sys2Proof/Machine/Dispatch.lean ====
section
/-! DEFINITION. One arm per command: `exec i` is one tick of SEQ while `i` is the current command (spec/40_timer.md R100). -/

namespace Sys2Proof.Machine

def exec (i : Instr) (s : State) : Host.Outcome State Fault Refusal :=
  match i with
  | .cfgOut => Sys2Proof.Machine.execCfgOut s
  | .cfgIn => Sys2Proof.Machine.execCfgIn s
  | .write l => Sys2Proof.Machine.execWrite l s
  | .sense => Sys2Proof.Machine.execSense s
  | .timReset => Sys2Proof.Machine.execTimReset s
  | .delay n => Sys2Proof.Machine.execDelay n s
  | .waitWhile l => Sys2Proof.Machine.execWaitWhile l s
  | .start => Sys2Proof.Machine.execStart s
  | .capture => Sys2Proof.Machine.execCapture s
  | .read => Sys2Proof.Machine.execRead s

end Sys2Proof.Machine
end

