-- ==== Sys2Proof/Machine/HostProgram.lean ====
section
/-! DEFINITION. HOST's side of a run: raw bus accesses (spec/20_memory.md R52), the expansion of host statements into register accesses
(spec/30_encoding.md R78), of pseudo-instructions into commands (R79), and the steps that make the accesses. -/

namespace Sys2Proof.Machine

/-! ### Expansions -/

/-- Where a readable register stands (20_memory.md R51). -/
def readRegOffset : ReadReg → Nat
  | .status => 0x04
  | .cnt => 0x08
  | .data j => 0x0C + 4 * j.val

/-- `ISSUE <cmd>`: one CMD write of the command's word; a command the assembler refuses has none (30_encoding.md R77, R78). -/
def expandIssue (i : Instr) : Option (List HostOp) :=
  if i.wf then some [.write 0x00 (encode i)] else none

/-- The register accesses of a host statement (30_encoding.md R78). -/
def expandStmt : HostStmt → Option (List HostOp)
  | .cmd i => (expandIssue i).map (· ++ [.poll])
  | .issue i => expandIssue i
  | .wrcmd w => some [.write 0x00 w]
  | .poll => some [.poll]
  | .clrerr => some [.write 0x04 0x00000010]
  | .rd r => some [.read (readRegOffset r)]

/-- The register accesses of a host program, "a list of host statements" (30_encoding.md R78). -/
def expandProgram : List HostStmt → Option (List HostOp)
  | [] => some []
  | st :: rest =>
    match expandStmt st, expandProgram rest with
    | some ops, some more => some (ops ++ more)
    | _, _ => none

/-- The commands a pseudo-instruction stands for (30_encoding.md R79).
START_MANUAL's low delay is T_START_LOW_US, which has no encoding where it is above 65535. [DESIGN CHOICE, notes/assumptions/21.md: safe] -/
def expandPseudo (p : Params) : Pseudo → List Instr
  | .drive l => [.write l, .cfgOut]
  | .release => [.cfgIn]
  | .untilHigh => [.waitWhile false]
  | .untilLow => [.waitWhile true]
  | .startManual => [.write false, .cfgOut, .delay p.startLowUs, .write true, .delay Config.startHighUs, .cfgIn]
  | .readSplit => [.start, .capture]

/-! ### Steps -/

/-- `HostAccess(a)` for a raw bus access: an access that is not admitted has no step (20_memory.md R52). -/
def hostAccess (a : Access) (s : State) : Host.Outcome State Fault Refusal :=
  match a with
  | .read addr size =>
    match s.admission addr size with
    | .refused r => .refused r
    | .admitted off => .next (s.hostRead off)
  | .write addr size v =>
    match s.admission addr size with
    | .refused r => .refused r
    | .admitted off => .next (s.hostWrite off v)

/-- One STATUS read of a POLL: the POLL has completed when it returns BUSY = 0 (30_encoding.md R78). -/
def pollRead (rest : List HostOp) (s : State) : State :=
  let t := s.hostRead 0x04
  if t.rdata.getLsbD 0 then t else { t with program := rest }

/-- One read of an `RD` statement: the value is kept for the program (30_encoding.md R78). -/
def readVar (rest : List HostOp) (off : Nat) (s : State) : State :=
  { s.hostRead off with vars := s.vars ++ [s.readReg off], program := rest }

/-- The next access of HOST's program (30_encoding.md R78). A program that has ended makes no access.
[DESIGN CHOICE, notes/assumptions/11.md: safe] -/
def programStep (s : State) : Host.Outcome State Fault Refusal :=
  match s.program with
  | [] => .next s
  | .poll :: rest => .next (pollRead rest s)
  | .read off :: rest =>
    match admitOffset off with
    | .refused r => .refused r
    | .admitted off => .next (readVar rest off s)
  | .write off v :: rest =>
    match admitOffset off with
    | .refused r => .refused r
    | .admitted off => .next ({ s with program := rest }.hostWrite off v)

end Sys2Proof.Machine
end

