-- ==== Sys2Proof/Machine/Tick.lean ====
section
/-! DEFINITION. The steps of a run (spec/00_scope.md R10): the tick, which runs the current command (spec/40_timer.md R100), and the choice
among tick, host access and reset. -/

namespace Sys2Proof.Machine

/-- ENV supplies the level of the tick: the one given, or a free draw (41_pin_mux.md R120). [DESIGN CHOICE, notes/assumptions/4.md: safe] -/
def State.draw (s : State) (e : Option Level) : State :=
  { s with env := e.getD (Config.envLevel s.draws), draws := s.draws + 1 }

/-- SEQ's part of a tick: idle, or one tick of the command in CUR (40_timer.md R100).
PHASE alone chooses the arm, so a phase other than ISSUE runs whatever CUR.OP holds.
An ISSUE with no command in CUR, which no run reaches, has no arm. [DEDUCED, notes/assumptions/9.md: safe] -/
def runCurrent (s : State) : Host.Outcome State Fault Refusal :=
  if s.phase = .idle then .next (idleArm s)
  else
    match s.cur.instr? with
    | some i => exec i s
    | none => if s.phase = .issue then .refused .issueOpcode else .next (sequencerTick id s)

/-- `Tick(e)` (40_timer.md R100). -/
def tick (e : Option Level) (s : State) : Host.Outcome State Fault Refusal :=
  runCurrent (s.draw e)

/-- One step of a run (00_scope.md R10). -/
def takeTurn (t : Turn) (s : State) : Host.Outcome State Fault Refusal :=
  match t with
  | .access a => hostAccess a s
  | .program => programStep s
  | .tick e => tick e s
  | .reset => .next s.applyReset

end Sys2Proof.Machine
end

