-- ==== Sys2Proof/Machine/Step.lean ====
section
/-! DEFINITION. The step function: the first of the steps still to come (spec/00_scope.md R10), and where a command stands that the next
step runs. -/

namespace Sys2Proof.Machine

/-- One step of the run. With no step listed, a tick comes, its level a free draw: "SEQ ticks whether or not a command is in progress"
(40_timer.md R100). [DESIGN CHOICE, notes/assumptions/3.md: safe] -/
def step (s : State) : Host.Outcome State Fault Refusal :=
  match s.turns with
  | [] => tick none s
  | t :: rest => takeTurn t { s with turns := rest }

/-- `s` with HOST's write of the command word just accepted by an idle SWSI (30_encoding.md R81) and a tick next, its issue tick: SWSI
fetches nothing (20_memory.md R61), so this stands for the fetch. [DESIGN CHOICE, notes/assumptions/15.md: safe] -/
def State.withFetchWord (s : State) (nbits w : Nat) : State :=
  { { s with busy := false, phase := .idle }.writeCmd (BitVec.ofNat 32 (w % 2 ^ nbits)) with turns := .tick none :: s.turns }

end Sys2Proof.Machine
end

