-- ==== Sys2Proof/Safety.lean ====
section
/-! DEFINITION. The terms statements are made in: runs, the phases of a command, the invariant of the machine (spec/10_state.md R39 and what
the arms keep), the zeroing of the counter (spec/40_timer.md R103), clean waveforms (spec/43_edge_sampler.md R169). -/

namespace Sys2Proof.Machine

/-! ### Runs -/

/-- The state after the steps `ts`, where each has a next state; the steps listed in `s` are still to come. -/
def after (ts : List Turn) (s : State) : Option State :=
  nextState? (Sys2Proof.core.run ts.length { s with turns := ts ++ s.turns })

/-- One tick for each level given. -/
def ticks (es : List Level) : List Turn := es.map fun e => .tick (some e)

/-- HOST's aligned 4-byte write at an offset from SWSI_BASE: `MemWrite(SWSI_BASE + off, 4, v)` (00_scope.md R12). -/
def memWrite (s : State) (off : Nat) (v : Word) : Turn := .access (.write (s.params.base + off) 4 v)

/-- HOST's aligned 4-byte read at an offset from SWSI_BASE: `MemRead(SWSI_BASE + off, 4)` (00_scope.md R12). -/
def memRead (s : State) (off : Nat) : Turn := .access (.read (s.params.base + off) 4)

/-- LINE in the next tick, for the level `e` that ENV supplies there (41_pin_mux.md R120). -/
def State.lineWith (s : State) (e : Level) : Level := { s with env := e }.line

/-- The levels given to the ticks among `ts`; a tick with a free draw has none. -/
def givenLevels : List Turn → List Level
  | [] => []
  | .tick (some e) :: ts => e :: givenLevels ts
  | .tick none :: ts => givenLevels ts
  | .access _ :: ts => givenLevels ts
  | .program :: ts => givenLevels ts
  | .reset :: ts => givenLevels ts

/-- Whether a step is a host access or a tick with a given level: not a reset and not a free draw. -/
def Turn.hostOrGiven : Turn → Bool
  | .access _ => true
  | .program => true
  | .tick (some _) => true
  | .tick none => false
  | .reset => false

/-- Whether a step is a tick with the level `l`, or a host access. -/
def Turn.hostOrTickAt (l : Level) : Turn → Bool
  | .access _ => true
  | .program => true
  | .tick (some e) => e == l
  | .tick none => false
  | .reset => false

/-- The step that `s` takes next is a tick: the first step listed, or the one that comes where none is (00_scope.md R10). -/
def State.ticking (s : State) : Prop := s.turns = [] ∨ ∃ e rest, s.turns = .tick e :: rest

/-- The step that `s` takes next is `MemWrite(SWSI_BASE + off, 4, v)`, made by HOST directly or as the next access of its program. -/
def State.writing (s : State) (off : Nat) (v : Word) : Prop :=
  (∃ rest, s.turns = memWrite s off v :: rest) ∨ ∃ rest ops, s.turns = .program :: rest ∧ s.program = .write off v :: ops

/-! ### The two states of SWSI compared -/

/-- The two states agree on what SEQ works with: all of 10_state.md R20 but ERR and ERRCAUSE. -/
def State.sameSeq (s t : State) : Prop :=
  s.mode = t.mode ∧ s.olat = t.olat ∧ s.cnt = t.cnt ∧ s.data = t.data ∧ s.busy = t.busy ∧ s.level = t.level ∧ s.ok = t.ok ∧
    s.phase = t.phase ∧ s.bitIdx = t.bitIdx ∧ s.byteIdx = t.byteIdx ∧ s.cur = t.cur ∧ s.params = t.params

/-- The two states agree on all of 10_state.md R20 and on the parameters. -/
def State.sameBlock (s t : State) : Prop :=
  s.sameSeq t ∧ s.err = t.err ∧ s.errCause = t.errCause

/-! ### Commands and their phases -/

/-- The phases a command passes through (10_state.md R31). -/
def phasesOf : Instr → List Phase
  | .cfgOut => [.issue]
  | .cfgIn => [.issue]
  | .write _ => [.issue]
  | .sense => [.issue]
  | .timReset => [.issue]
  | .delay _ => [.issue, .delayWait]
  | .waitWhile _ => [.issue, .levelWait]
  | .start => [.issue, .startLow, .startHigh]
  | .capture => [.issue, .capWaitLow, .capDelay, .capWaitHigh]
  | .read => [.issue, .startLow, .startHigh, .capWaitLow, .capDelay, .capWaitHigh]

/-- Acceptance for the row `m` of 30_encoding.md R73, as every command's rule gives it: BUSY and ILLEGAL errors at acceptance only
(60_exceptions.md R202, R203), and otherwise CUR latched, BUSY 1, OK 0 and PHASE = ISSUE (30_encoding.md R81). -/
def AcceptsRow (m : Mnemonic) : Prop :=
  ∀ (s : State) (w : Word), opField w = opField m.matchWord →
    (s.busy = true → s.writeCmd w = { s with err := true, errCause := if s.err then s.errCause else .busy }) ∧
    (s.busy = false → w &&& m.maskWord ≠ m.matchWord →
      s.writeCmd w = { s with err := true, errCause := if s.err then s.errCause else .illegal }) ∧
    (s.busy = false → w &&& m.maskWord = m.matchWord →
      s.writeCmd w = { s with
        cur := { op := opField w, l := levelField w, us := usField w }
        busy := true, ok := false, phase := .issue })

/-! ### Invariants -/

/-- The invariants of 10_state.md R39, with "J <= 4" and "PHASE <= 8" as statements about the codes in STATUS. -/
structure State.StatusInv (s : State) : Prop where
  busy_iff_idle : s.busy = false ↔ s.phase = .idle
  err_iff_cause : s.err = false ↔ s.errCause = .noError
  byteIdx_le : (s.statusWord.extractLsb' 16 3).toNat ≤ 4
  phase_le : (s.statusWord.extractLsb' 8 4).toNat ≤ 8
  cnt_lt : s.cnt < 2 ^ s.params.cntWidth

/-- What every step keeps: R39's relations, and where a command can be, with what counter, pin mode and latch. -/
structure State.Inv (s : State) : Prop where
  /-- 00_scope.md R7, R8. -/
  params_legal : s.params.Legal
  /-- R39. -/
  cnt_lt : s.cnt < s.params.cntRange
  /-- R39. -/
  busy_iff_idle : s.busy = false ↔ s.phase = .idle
  /-- R39. -/
  err_iff_cause : s.err = false ↔ s.errCause = .noError
  /-- CUR holds the fields of a legal word (R33, R81), and PHASE is a phase of that command. -/
  command : s.phase ≠ .idle → ∃ i : Instr, i.wf = true ∧ s.cur = Cur.ofWord (encode i) ∧ s.phase ∈ phasesOf i
  /-- A timed wait has not expired (40_timer.md R107). -/
  delay_running : s.phase = .delayWait → s.cnt < s.cur.count
  startLow_running : s.phase = .startLow → s.cnt < s.params.startLowUs
  startHigh_running : s.phase = .startHigh → s.cnt < Config.startHighUs
  sample_running : s.phase = .capDelay → s.cnt < Config.sampleUs
  /-- The start signal drives the line low, then high (42_start_signal.md R140, R141). -/
  startLow_drives : s.phase = .startLow → s.mode = .output ∧ s.olat = false
  startHigh_drives : s.phase = .startHigh → s.mode = .output ∧ s.olat = true
  /-- READ samples with the line released (42_start_signal.md R142). -/
  read_released : s.phase.inBitLoop = true → s.cur.isRead = true → s.mode = .input ∧ s.olat = true
  /-- OK says that the last command was a CAPTURE or READ that completed (10_state.md R30, R32). -/
  ok_completed : s.ok = true → s.phase = .idle ∧ s.lastBit = true ∧ (s.cur.instr? = some .capture ∨ s.cur.instr? = some .read)
  /-- After a completed READ the pin is in input mode (41_pin_mux.md R129). -/
  read_completed : s.phase = .idle → s.cur.isRead = true → s.ok = true ∧ s.mode = .input ∧ s.olat = true

/-! ### The counter -/

/-- The ticks that set CNT <- 0, the five actions of 40_timer.md R103: the issue ticks of TIM_RESET, DELAY, START and READ, the
START_LOW to START_HIGH transition, and a detected rise. -/
def State.zeroes (s : State) : Prop :=
  (s.phase = .issue ∧ (s.cur.op = 0x5 ∨ s.cur.op = 0x6 ∨ s.cur.op = 0x8 ∨ s.cur.op = 0xA)) ∨
    (s.phase = .startLow ∧ s.params.startLowUs ≤ s.nextCnt) ∨
    (s.phase = .capWaitLow ∧ s.line = true)

/-- A phase with a timed wait for `cnt >= n` in the state `s` (40_timer.md R107). -/
def State.timedWait (s : State) (n : Nat) : Prop :=
  (s.phase = .delayWait ∧ n = s.cur.count) ∨
    (s.phase = .startLow ∧ n = s.params.startLowUs) ∨
    (s.phase = .startHigh ∧ n = Config.startHighUs) ∨
    (s.phase = .capDelay ∧ n = Config.sampleUs)

/-! ### Waveforms of the bit loop -/

/-- One pulse of the line: high for `high` ticks, then low for `low` ticks (43_edge_sampler.md R169). -/
structure Pulse where
  high : Nat
  low : Nat
  deriving DecidableEq, Repr

/-- "high for h_k >= 1 ticks and then low for g_k >= 1 ticks. Each pulse with h_k <= 40 also has h_k + g_k >= 42." -/
def Pulse.clean (p : Pulse) : Prop :=
  1 ≤ p.high ∧ 1 ≤ p.low ∧ (p.high ≤ 40 → 42 ≤ p.high + p.low)

/-- The levels of a pulse, tick by tick. -/
def Pulse.levels (p : Pulse) : List Level := List.replicate p.high true ++ List.replicate p.low false

/-- A waveform: a leading low of `lead` ticks, then the pulses (43_edge_sampler.md R169). -/
def waveform (lead : Nat) (ps : List Pulse) : List Level :=
  List.replicate lead false ++ ps.flatMap Pulse.levels

/-- The ticks from the first rise to the completion, both included: "C = E_39 + max(h_39, 41)", and E_(k+1) = E_k + h_k + g_k
(43_edge_sampler.md R169). -/
def loopTicks : List Pulse → Nat
  | [] => 0
  | [p] => max p.high 41 + 1
  | p :: q :: ps => p.high + p.low + loopTicks (q :: ps)

/-- The fewest ticks, t0 included, in which each command completes (70_reset_and_hazards.md R250). -/
def minTicks (p : Params) : Instr → Nat
  | .cfgOut => 1
  | .cfgIn => 1
  | .write _ => 1
  | .sense => 1
  | .timReset => 1
  | .delay n => n + 1
  | .waitWhile _ => 2
  | .start => p.startLowUs + 31
  | .capture => 1681
  | .read => p.startLowUs + 1711

end Sys2Proof.Machine
end

