-- ==== Sys2Proof/Certificates/Slice0/Obligations.lean ====
section
/-! DEFINITION. The statements about SWSI, from the numbered rules of spec/. -/

open Sys2Proof Sys2Proof.Machine

/-! ### Encoding (30_encoding.md) -/

/-- Every command with an encoding decodes from its own word, whatever its operand (30_encoding.md R73, R77, R80). -/
def Obligations.DecodeOfEncode : Prop :=
  ∀ i : Instr, i.wf = true → decode (encode i) = .cmd i

/-- A word that decodes to a command is that command's word, and the command has an encoding (30_encoding.md R73, R80). -/
def Obligations.EncodeOfDecode : Prop :=
  ∀ (w : Word) (i : Instr), decode w = .cmd i → i.wf = true ∧ encode i = w

/-- 30_encoding.md R73: a word encodes the command of a row exactly where `(w & mask) == match`; the level and the count are the fields
L and US; a field the row marks 0 is 0; and no two rows match the same word. -/
def Obligations.RowsSelectCommands : Prop :=
  ∀ w : Word,
    (∀ m : Mnemonic, w &&& m.maskWord = m.matchWord ↔ ∃ i, decode w = .cmd i ∧ i.mnemonic = m) ∧
    (∀ i, decode w = .cmd i →
      i.levelOperand = w.getLsbD 4 ∧ i.countOperand = (w.extractLsb' 16 16).toNat ∧ w.extractLsb' 5 11 = 0) ∧
    (∀ m n : Mnemonic, w &&& m.maskWord = m.matchWord → w &&& n.maskWord = n.matchWord → m = n)

/-- 30_encoding.md R74: a word is ILLEGAL exactly where no row matches it, and exactly in the rule's three cases; the all-zero word is
illegal; accepting an illegal word raises CmdError(ILLEGAL) and does nothing else. -/
def Obligations.IllegalWordsRejected : Prop :=
  (∀ w : Word,
    ((∃ why, decode w = .illegal why) ↔ ∀ m : Mnemonic, w &&& m.maskWord ≠ m.matchWord) ∧
    ((∃ why, decode w = .illegal why) ↔
      (opField w = 0 ∨ 0xB ≤ (opField w).toNat ∨ rsvField w ≠ 0 ∨
        (levelField w = true ∧ opField w ≠ 0x3 ∧ opField w ≠ 0x7) ∨ (usField w ≠ 0 ∧ opField w ≠ 0x6)))) ∧
  (∃ why, decode 0x00000000 = .illegal why) ∧
  (∀ (s : State) (w : Word), s.busy = false → (∀ m : Mnemonic, w &&& m.maskWord ≠ m.matchWord) →
    s.writeCmd w = { s with err := true, errCause := if s.err then s.errCause else .illegal })

/-- 30_encoding.md R77: the assembler gives a command for its own form and no other, and refuses an immediate outside its range. -/
def Obligations.AssemblerForms : Prop :=
  ∀ (a : AsmLine) (i : Instr), assemble a = some i ↔ a = i.asmLine ∧ i.wf = true

/-- The words of the vectors V-E1 to V-E27 of 95_test_vectors.md, one for each command and for each kind of illegal word. -/
def Obligations.VectorWordsDecode : Prop :=
  decode 0x00000001 = .cmd .cfgOut ∧ decode 0x00000002 = .cmd .cfgIn ∧ decode 0x00000003 = .cmd (.write false) ∧
  decode 0x00000013 = .cmd (.write true) ∧ decode 0x00000004 = .cmd .sense ∧ decode 0x00000005 = .cmd .timReset ∧
  decode 0x46500006 = .cmd (.delay 18000) ∧ decode 0x00000007 = .cmd (.waitWhile false) ∧
  decode 0x00000017 = .cmd (.waitWhile true) ∧ decode 0x00000008 = .cmd .start ∧ decode 0x00000009 = .cmd .capture ∧
  decode 0x0000000A = .cmd .read ∧ decode 0x00000016 = .illegal .operand ∧ decode 0x00008006 = .illegal .reserved ∧
  decode 0x0000000B = .illegal .opcode

/-! ### Acceptance and command errors (30_encoding.md R81, 60_exceptions.md) -/

/-- 30_encoding.md R81: what HOST's write of a word to CMD does, in its three cases, to all of State, and that the next tick is the
command's issue tick: it runs the command's meaning in PHASE = ISSUE. -/
def Obligations.CommandAcceptance : Prop :=
  ∀ (s : State) (w : Word) (rest : List Turn), s.turns = memWrite s 0x00 w :: rest →
    (s.busy = true → step s = .next { s with
      err := true, errCause := if s.err then s.errCause else .busy, turns := rest, draws := s.draws + 1 }) ∧
    (s.busy = false → (∀ i, decode w ≠ .cmd i) → step s = .next { s with
      err := true, errCause := if s.err then s.errCause else .illegal, turns := rest, draws := s.draws + 1 }) ∧
    (∀ i, s.busy = false → decode w = .cmd i → ∃ t, step s = .next t ∧
      t = { s with
        cur := { op := w.extractLsb' 0 4, l := w.getLsbD 4, us := w.extractLsb' 16 16 }
        busy := true, ok := false, phase := .issue, turns := rest, draws := s.draws + 1 } ∧
      ∀ e later, step { t with turns := .tick e :: later } = exec i ({ t with turns := later }.draw e))

/-- 60_exceptions.md R201 and R204: BUSY is checked before the word is decoded, one write raises at most one error, the first cause is
kept while ERR = 1, and the error writes ERR and ERRCAUSE alone. -/
def Obligations.ErrorPriority : Prop :=
  ∀ (s : State) (w : Word),
    (s.busy = true ∨ ∃ why, decode w = .illegal why) →
    (s.writeCmd w).err = true ∧
    ((s.writeCmd w).errCause =
      if s.err then s.errCause else if s.busy then ErrCause.busy else ErrCause.illegal) ∧
    s.writeCmd w = { s with err := (s.writeCmd w).err, errCause := (s.writeCmd w).errCause } ∧
    ∀ v : Word, (s.busy = true ∨ ∃ why, decode v = .illegal why) → (s.writeCmd w).writeCmd v = s.writeCmd w

/-- 60_exceptions.md R202: while a command is in progress, no sequence of CMD writes, legal words or not, does anything but report the
first error: the command in progress is undisturbed. -/
def Obligations.BusyWritesOnlyReport : Prop :=
  ∀ (s : State) (ws : List Word), s.busy = true → ws ≠ [] →
    after (ws.map (memWrite s 0x00)) s = some { s with
      err := true, errCause := if s.err then s.errCause else .busy, draws := s.draws + ws.length }

/-- 60_exceptions.md R203: an illegal word written to an idle SWSI is rejected and SWSI stays idle. -/
def Obligations.IllegalWriteStaysIdle : Prop :=
  ∀ (s : State) (w : Word), s.busy = false → s.phase = .idle → (∀ i, decode w ≠ .cmd i) →
    ∃ t, after [memWrite s 0x00 w] s = some t ∧ t.busy = false ∧ t.phase = .idle ∧ t.err = true ∧
      (s.err = false → t.errCause = .illegal) ∧
      t = { s with err := true, errCause := if s.err then s.errCause else .illegal, draws := s.draws + 1 }

/-- 60_exceptions.md R210: the STATUS write with bit 4 = 1 clears ERR and ERRCAUSE at any time, BUSY or not, and nothing else; any other
step but Reset, the acceptance of a command among them, keeps a pending error. -/
def Obligations.OnlyStatusWriteOrResetClears : Prop :=
  (∀ (s : State) (v : Word), v.getLsbD 4 = true →
    after [memWrite s 0x04 v] s = some { s with err := false, errCause := .noError, draws := s.draws + 1 }) ∧
  (∀ (s t : State), step s = .next t → s.err = true →
    (t.err = true ∧ t.errCause = s.errCause) ∨
    (∃ rest, s.turns = .reset :: rest) ∨
    (∃ v rest, v.getLsbD 4 = true ∧ s.turns = memWrite s 0x04 v :: rest) ∨
    (∃ v rest ops, v.getLsbD 4 = true ∧ s.turns = .program :: rest ∧ s.program = .write 0x04 v :: ops))

/-- 60_exceptions.md R200: no tick and no register access but a CMD write raises an error; the cause is BUSY for any word while BUSY = 1,
and ILLEGAL for a word that matches no row while BUSY = 0. -/
def Obligations.OnlyCommandWritesRaise : Prop :=
  ∀ (s t : State), step s = .next t → s.err = false → t.err = true →
    (s.busy = true → t.errCause = .busy) ∧ (s.busy = false → t.errCause = .illegal) ∧
    ((∃ w rest, s.turns = memWrite s 0x00 w :: rest ∧ (s.busy = true ∨ ∃ why, decode w = .illegal why)) ∨
    (∃ w rest ops, s.turns = .program :: rest ∧ s.program = .write 0x00 w :: ops ∧
      (s.busy = true ∨ ∃ why, decode w = .illegal why)))

/-! ### The register window (10_state.md R34-R37, 20_memory.md) -/

/-- 20_memory.md R52: the only admitted access is a 4-byte access at a multiple of 4 inside the 0x40-byte window; any other is refused. -/
def Obligations.OnlyAlignedWordsAdmitted : Prop :=
  ∀ (s : State) (rest : List Turn) (addr size : Nat),
    (∀ v, s.turns = .access (.write addr size v) :: rest →
      ((∃ r, step s = .refused r) ↔ ¬ (size = 4 ∧ ∃ off, off < 0x40 ∧ off % 4 = 0 ∧ addr = s.params.base + off)) ∧
      ((∃ t, step s = .next t) ↔ (size = 4 ∧ ∃ off, off < 0x40 ∧ off % 4 = 0 ∧ addr = s.params.base + off))) ∧
    (s.turns = .access (.read addr size) :: rest →
      ((∃ r, step s = .refused r) ↔ ¬ (size = 4 ∧ ∃ off, off < 0x40 ∧ off % 4 = 0 ∧ addr = s.params.base + off)) ∧
      ((∃ t, step s = .next t) ↔ (size = 4 ∧ ∃ off, off < 0x40 ∧ off % 4 = 0 ∧ addr = s.params.base + off)))

/-- 20_memory.md R54: an admitted read changes nothing but the value HOST has, the value is that of the register in the state after the last
step, and a second read with no step between returns the same value, in the bit loop too. -/
def Obligations.ReadsHaveNoSideEffect : Prop :=
  ∀ (s : State) (off : Nat), off < 0x40 → off % 4 = 0 →
    ∃ v : Word, after [memRead s off] s = some { s with rdata := v } ∧ v = s.readReg off ∧
      after [memRead s off, memRead s off] s = some { s with rdata := v }

/-- 20_memory.md R55: the side effects of writes, offset by offset; no write changes MODE, OLAT, CNT or DATA. -/
def Obligations.WriteSideEffects : Prop :=
  ∀ (s : State) (off : Nat) (v : Word), off < 0x40 → off % 4 = 0 →
    ∃ t, after [memWrite s off v] s = some t ∧
      (off = 0x00 → t = { s.writeCmd v with draws := s.draws + 1 }) ∧
      (off = 0x04 → v.getLsbD 4 = true → t = { s with err := false, errCause := .noError, draws := s.draws + 1 }) ∧
      (off = 0x04 → v.getLsbD 4 = false → t = { s with draws := s.draws + 1 }) ∧
      (0x08 ≤ off → t = { s with draws := s.draws + 1 }) ∧
      t.mode = s.mode ∧ t.olat = s.olat ∧ t.cnt = s.cnt ∧ t.data = s.data

/-- 10_state.md R34: the layout of STATUS, field by field, with ERRCAUSE and PHASE at the codes of R29 and R31, 0 = none, 1 = ILLEGAL,
2 = BUSY, and 0 = IDLE to 8 = CAP_WAITHIGH; the bits not listed read 0; bit 4 is the only one a write acts on; after Reset all of it
reads 0. -/
def Obligations.StatusLayout : Prop :=
  State.reset.statusWord = 0 ∧ ∀ s : State, ∃ v : Word, after [memRead s 0x04] s = some { s with rdata := v } ∧
    v.getLsbD 0 = s.busy ∧ v.getLsbD 1 = s.level ∧ v.getLsbD 2 = decide (s.mode = .output) ∧ v.getLsbD 3 = s.olat ∧
    v.getLsbD 4 = s.err ∧ v.getLsbD 7 = s.ok ∧
    ((s.errCause = .noError → v.extractLsb' 5 2 = 0) ∧ (s.errCause = .illegal → v.extractLsb' 5 2 = 1) ∧
      (s.errCause = .busy → v.extractLsb' 5 2 = 2)) ∧
    ((s.phase = .idle → v.extractLsb' 8 4 = 0) ∧ (s.phase = .issue → v.extractLsb' 8 4 = 1) ∧
      (s.phase = .delayWait → v.extractLsb' 8 4 = 2) ∧ (s.phase = .levelWait → v.extractLsb' 8 4 = 3) ∧
      (s.phase = .startLow → v.extractLsb' 8 4 = 4) ∧ (s.phase = .startHigh → v.extractLsb' 8 4 = 5) ∧
      (s.phase = .capWaitLow → v.extractLsb' 8 4 = 6) ∧ (s.phase = .capDelay → v.extractLsb' 8 4 = 7) ∧
      (s.phase = .capWaitHigh → v.extractLsb' 8 4 = 8)) ∧
    (v.extractLsb' 12 3).toNat = s.bitIdx.val ∧ v.getLsbD 15 = false ∧ (v.extractLsb' 16 3).toNat = s.byteIdx.val ∧
    v.extractLsb' 19 13 = 0 ∧
    ∀ w : Word, after [memWrite s 0x04 w] s = some { s with
      err := s.err && !w.getLsbD 4, errCause := if w.getLsbD 4 then .noError else s.errCause, draws := s.draws + 1 }

/-- 10_state.md R36: CNT reads as zext_32(CNT), bits 31:W read 0, and writes are ignored. -/
def Obligations.CounterRegister : Prop :=
  ∀ s : State, s.params.Legal → s.cnt < 2 ^ s.params.cntWidth →
    ∃ v : Word, after [memRead s 0x08] s = some { s with rdata := v } ∧ v.toNat = s.cnt ∧
      (∀ k, s.params.cntWidth ≤ k → v.getLsbD k = false) ∧
      ∀ w : Word, after [memWrite s 0x08 w] s = some { s with draws := s.draws + 1 }

/-- 10_state.md R37, outside the bit loop of a command in progress: DATA[j] reads as zext_32(DATA[j]) and writes are ignored.
In the bit loop the rule gives no value; the model's is a free one (notes/assumptions/6.md).
That a read with BUSY = 1 outside the bit loop, as in the start signal of READ, gives zext_32(DATA[j]) is the model's choice: R37 bounds
`any value` to the three phases of the bit loop, and R174 and R244 speak of the whole command (notes/assumptions/7.md, DEDUCED, unsafe if
they are read broadly). -/
def Obligations.DataRegisters : Prop :=
  ∀ (s : State) (j : Fin 5),
    (s.busy = false ∨ (s.phase ≠ .capWaitLow ∧ s.phase ≠ .capDelay ∧ s.phase ≠ .capWaitHigh) →
      ∃ v : Word, after [memRead s (0x0C + 4 * j.val)] s = some { s with rdata := v } ∧
        v.extractLsb' 0 8 = s.data[j.val] ∧ v.extractLsb' 8 24 = 0) ∧
    ∀ w : Word, after [memWrite s (0x0C + 4 * j.val) w] s = some { s with draws := s.draws + 1 }

/-- 10_state.md R35 and 20_memory.md R53: CMD and the reserved offsets 0x20 to 0x3C read 0; a write to a reserved offset is ignored;
neither raises an error. -/
def Obligations.ZeroReadRegisters : Prop :=
  ∀ (s : State) (off : Nat), (off = 0x00 ∨ (0x20 ≤ off ∧ off ≤ 0x3C ∧ off % 4 = 0)) →
    after [memRead s off] s = some { s with rdata := 0 } ∧
    (off ≠ 0x00 → ∀ w : Word, after [memWrite s off w] s = some { s with draws := s.draws + 1 })

/-! ### The tick and the counter (40_timer.md) -/

/-- A tick runs the command that CUR holds: the step is the draw of the level and then the meaning of that command (40_timer.md R100);
with no step listed it is such a tick, at a free level (notes/assumptions/3.md). -/
def Obligations.StepRunsCurrentCommand : Prop :=
  ∀ (s : State) (i : Instr), s.phase ≠ .idle → s.cur.instr? = some i →
    (∀ e rest, s.turns = .tick e :: rest → step s = exec i ({ s with turns := rest }.draw e)) ∧
    (s.turns = [] → step s = exec i (s.draw none))

/-- 40_timer.md R100's IDLE arm: an idle tick advances CNT modulo 2^W and changes nothing else. -/
def Obligations.IdleTickCounts : Prop :=
  ∀ (s : State) (es : List Level), s.phase = .idle → s.cnt < 2 ^ s.params.cntWidth →
    after (ticks es) s = some { s with
      cnt := (s.cnt + es.length) % 2 ^ s.params.cntWidth
      env := es.getLastD s.env
      draws := s.draws + es.length }

/-- 40_timer.md R101 and R103: in a tick CNT becomes 0 in exactly the five zeroing actions, and (CNT + 1) mod 2^W otherwise; no host
access changes it; Reset zeroes it. -/
def Obligations.CounterZeroing : Prop :=
  ∀ (s t : State) (turn : Turn), takeTurn turn s = .next t →
    (∀ e, turn = .tick e →
      ((s.draw e).zeroes → t.cnt = 0) ∧ (¬ (s.draw e).zeroes → t.cnt = (s.cnt + 1) % 2 ^ s.params.cntWidth)) ∧
    (∀ a, turn = .access a → t.cnt = s.cnt) ∧ (turn = .program → t.cnt = s.cnt) ∧ (turn = .reset → t.cnt = 0)

/-- 40_timer.md R104: TIM_RESET, whole: acceptance and its errors, the issue tick, and the counter k ticks after it. -/
def Obligations.TimResetEffect : Prop :=
  AcceptsRow .timReset ∧ encode .timReset = 0x00000005 ∧
  (∀ s : State, s.phase = .issue →
    exec .timReset s = .next { s with cnt := 0, busy := false, phase := .idle }) ∧
  (∀ (s : State) (e : Level) (es : List Level), s.phase = .issue → s.cur.instr? = some .timReset →
    ∃ t, after (ticks (e :: es)) s = some t ∧ t.cnt = es.length % 2 ^ s.params.cntWidth)

/-- 40_timer.md R105: DELAY #n, whole: acceptance and its errors; the issue tick and the DELAY_WAIT arm; for every n the command is in progress for exactly n + 1
ticks, whatever the line does, ends with CNT = n, and changes nothing but CNT, BUSY and PHASE. -/
def Obligations.DelayEffect : Prop :=
  AcceptsRow .delay ∧ (∀ n, n ≤ 65535 → encode (.delay n) = (BitVec.ofNat 32 n <<< 16) ||| 0x6) ∧
  (∀ (s : State) (n : Nat), s.phase = .issue →
    exec (.delay n) s =
      .next { s with cnt := 0, busy := if n = 0 then false else s.busy, phase := if n = 0 then .idle else .delayWait }) ∧
  (∀ (s : State) (n : Nat), s.phase = .delayWait →
    exec (.delay n) s = .next { s with
      cnt := (s.cnt + 1) % 2 ^ s.params.cntWidth
      busy := if n ≤ (s.cnt + 1) % 2 ^ s.params.cntWidth then false else s.busy
      phase := if n ≤ (s.cnt + 1) % 2 ^ s.params.cntWidth then .idle else .delayWait }) ∧
  (∀ (s : State) (n : Nat) (es : List Level), s.phase = .issue → s.busy = true → s.cur.instr? = some (.delay n) → s.params.Legal →
    (es.length ≤ n → ∃ t, after (ticks es) s = some t ∧ t.busy = true) ∧
    (es.length = n + 1 → after (ticks es) s = some { s with
      cnt := n, busy := false, phase := .idle, env := es.getLastD s.env, draws := s.draws + (n + 1) }))

/-- 40_timer.md R107: a timed wait for n that starts with CNT = 0 ends in the n-th tick after and not before, and CNT reads k at the end
of the k-th. -/
def Obligations.TimedWaitLaw : Prop :=
  ∀ (s : State) (n : Nat) (es : List Level), s.params.Legal → s.cnt = 0 → s.timedWait n → 1 ≤ n → n ≤ 2 ^ s.params.cntWidth - 1 →
    ∃ t, after (ticks es) s = some t ∧
      (es.length < n → t.phase = s.phase ∧ t.cnt = es.length) ∧ (es.length = n → t.phase ≠ s.phase)

/-- Two CNT reads k idle ticks apart differ by k modulo 2^W, for k below 2^W (40_timer.md R106). -/
def Obligations.IntervalByCounter : Prop :=
  ∀ (s : State) (es : List Level), s.phase = .idle → s.params.Legal → s.cnt < 2 ^ s.params.cntWidth →
    es.length < 2 ^ s.params.cntWidth →
    ∃ t, after (ticks es ++ [memRead s 0x08]) s = some t ∧
      (t.rdata.toNat + 2 ^ s.params.cntWidth - s.cnt) % 2 ^ s.params.cntWidth = es.length

/-! ### The pin multiplexer (41_pin_mux.md) -/

/-- 41_pin_mux.md R123: CFG_OUT, whole: acceptance and its errors, the issue tick, and the line driven at OLAT from the next tick. -/
def Obligations.CfgOutEffect : Prop :=
  AcceptsRow .cfgOut ∧ encode .cfgOut = 0x00000001 ∧
  ∀ s : State, s.phase = .issue →
    ∃ t, exec .cfgOut s = .next t ∧
      t = { s with mode := .output, cnt := (s.cnt + 1) % 2 ^ s.params.cntWidth, busy := false, phase := .idle } ∧
      (∀ e, t.lineWith e = s.olat) ∧ t.statusWord.getLsbD 2 = true

/-- 41_pin_mux.md R124: CFG_IN, whole: acceptance and its errors, the issue tick, and the line released from the next tick. -/
def Obligations.CfgInEffect : Prop :=
  AcceptsRow .cfgIn ∧ encode .cfgIn = 0x00000002 ∧
  ∀ s : State, s.phase = .issue →
    ∃ t, exec .cfgIn s = .next t ∧
      t = { s with mode := .input, cnt := (s.cnt + 1) % 2 ^ s.params.cntWidth, busy := false, phase := .idle } ∧
      (∀ e, t.lineWith e = e)

/-- 41_pin_mux.md R125: WRITE #l, whole: acceptance and its errors, the issue tick, and the line, which moves in OUT mode only. -/
def Obligations.WriteEffect : Prop :=
  AcceptsRow .write ∧ encode (.write false) = 0x00000003 ∧ encode (.write true) = 0x00000013 ∧
  ∀ (s : State) (l : Level), s.phase = .issue →
    ∃ t, exec (.write l) s = .next t ∧
      t = { s with olat := l, cnt := (s.cnt + 1) % 2 ^ s.params.cntWidth, busy := false, phase := .idle } ∧
      (s.mode = .output → ∀ e, t.lineWith e = l) ∧ (s.mode = .input → ∀ e, t.lineWith e = e) ∧ t.statusWord.getLsbD 3 = l

/-- 41_pin_mux.md R126: SENSE, whole: acceptance and its errors, and the issue tick: LEVEL is the level of that tick's line, e(t0) in IN
mode and OLAT in OUT mode. -/
def Obligations.SenseEffect : Prop :=
  AcceptsRow .sense ∧ encode .sense = 0x00000004 ∧
  ∀ (s : State) (e : Level), s.phase = .issue → s.cur.instr? = some .sense →
    (exec .sense { s with env := e } = .next { s with
      env := e
      level := if s.mode = .output then s.olat else e
      cnt := (s.cnt + 1) % 2 ^ s.params.cntWidth, busy := false, phase := .idle }) ∧
    ∃ t, after (ticks [e]) s = some t ∧ t.statusWord.getLsbD 1 = if s.mode = .output then s.olat else e

/-- 41_pin_mux.md R129: no step changes MODE but a tick of CFG_OUT, CFG_IN, START or READ, or Reset, and no step changes OLAT but
a tick of WRITE, START or READ, or Reset; CAPTURE and WAIT_WHILE, which are neither, leave the mode as they find it; and a READ that
completes leaves the pin in input mode. -/
def Obligations.PinWriters : Prop :=
  ∀ (s t : State), s.Inv → step s = .next t →
    (t.mode ≠ s.mode → (∃ rest, s.turns = .reset :: rest) ∨
      (s.ticking ∧ s.phase ≠ .idle ∧ ∃ i, s.cur.instr? = some i ∧ (i = .cfgOut ∨ i = .cfgIn ∨ i = .start ∨ i = .read))) ∧
    (t.olat ≠ s.olat → (∃ rest, s.turns = .reset :: rest) ∨
      (s.ticking ∧ s.phase ≠ .idle ∧ ∃ i, s.cur.instr? = some i ∧ ((∃ l, i = .write l) ∨ i = .start ∨ i = .read))) ∧
    (s.busy = true → s.cur.instr? = some .read → t.busy = false → t.mode = .input)

/-- The level of the line in each mode, and what reaches it: in IN mode the level ENV supplies, in OUT mode OLAT whatever ENV does, and
the pad enable and the pad output are MODE and OLAT (41_pin_mux.md R120, R121, R128). -/
def Obligations.LineResolution : Prop :=
  ∀ (s : State) (e : Level),
    (s.padOe = true → s.lineWith e = s.padO) ∧ (s.padOe = false → s.lineWith e = e) ∧
    (s.padOe = true ↔ s.mode = .output) ∧ s.padO = s.olat

/-! ### The start-signal generator (42_start_signal.md) -/

/-- START's ticks, one by one: the issue actions (42_start_signal.md R140), and the START_LOW and START_HIGH arms as START runs them
(R141, R142), each with all it leaves unchanged. -/
def Obligations.StartTicks : Prop :=
  (AcceptsRow .start ∧ encode .start = 0x00000008) ∧
  (∀ s : State, s.phase = .issue →
    exec .start s = .next { s with mode := .output, olat := false, cnt := 0, phase := .startLow }) ∧
  (∀ s : State, s.phase = .startLow →
    exec .start s = .next (if s.params.startLowUs ≤ (s.cnt + 1) % 2 ^ s.params.cntWidth
      then { s with olat := true, cnt := 0, phase := .startHigh }
      else { s with cnt := (s.cnt + 1) % 2 ^ s.params.cntWidth })) ∧
  (∀ s : State, s.phase = .startHigh → s.cur.op = 0x8 →
    exec .start s = .next (if 30 ≤ (s.cnt + 1) % 2 ^ s.params.cntWidth
      then { s with mode := .input, cnt := (s.cnt + 1) % 2 ^ s.params.cntWidth, busy := false, phase := .idle }
      else { s with cnt := (s.cnt + 1) % 2 ^ s.params.cntWidth }))

/-- 42_start_signal.md R143: the start waveform of START and of READ, tick by tick: low for exactly T_START_LOW_US ticks, high for exactly
30, then released in every later tick, whatever ENV does; START ends with tick S, and no phase of the bit loop comes before tick S + 1. -/
def Obligations.StartWaveform : Prop :=
  ∀ (s : State) (es : List Level), s.phase = .issue → s.busy = true → s.params.Legal →
    (s.cur.instr? = some .start ∨ s.cur.instr? = some .read) →
    ∃ t, after (ticks es) s = some t ∧
      (es.length = 0 → ∀ e, t.lineWith e = if s.mode = .output then s.olat else e) ∧
      (1 ≤ es.length → es.length ≤ s.params.startLowUs → t.mode = .output ∧ ∀ e, t.lineWith e = false) ∧
      (s.params.startLowUs + 1 ≤ es.length → es.length ≤ s.params.startLowUs + 30 → t.mode = .output ∧ ∀ e, t.lineWith e = true) ∧
      (es.length ≤ s.params.startLowUs + 30 → t.busy = true ∧ t.phase.inBitLoop = false) ∧
      (s.params.startLowUs + 31 ≤ es.length → t.mode = .input ∧ ∀ e, t.lineWith e = e) ∧
      (es.length = s.params.startLowUs + 31 →
        (s.cur.instr? = some .start → t.busy = false ∧ t.phase = .idle) ∧
        (s.cur.instr? = some .read → t.busy = true ∧ t.phase = .capWaitLow))

/-- 42_start_signal.md R145: the state after START, with `fs` the levels of the idle ticks that follow its last tick S. -/
def Obligations.StateAfterStart : Prop :=
  ∀ (s : State) (es fs : List Level), s.phase = .issue → s.ok = false → s.params.Legal → s.cur.instr? = some .start →
    es.length = s.params.startLowUs + 31 →
    after (ticks (es ++ fs)) s = some { s with
      mode := .input, olat := true, cnt := (30 + fs.length) % 2 ^ s.params.cntWidth, busy := false, phase := .idle, ok := false
      env := (es ++ fs).getLastD s.env, draws := s.draws + (es ++ fs).length }

/-! ### The edge sampler (43_edge_sampler.md) -/

/-- 43_edge_sampler.md R160 and R161: WAIT_WHILE #l: acceptance and its errors; the issue tick, in which the line is not examined; the
wait, which ends in the first later tick whose line is not l and in no tick before; in OUT mode the line is OLAT. -/
def Obligations.WaitWhileEffect : Prop :=
  (AcceptsRow .waitWhile ∧ encode (.waitWhile false) = 0x00000007 ∧ encode (.waitWhile true) = 0x00000017) ∧
  (∀ (s : State) (l : Level), s.phase = .issue →
    exec (.waitWhile l) s = .next { s with cnt := (s.cnt + 1) % 2 ^ s.params.cntWidth, phase := .levelWait }) ∧
  (∀ (s : State) (l : Level), s.phase = .levelWait →
    exec (.waitWhile l) s = .next { s with
      cnt := (s.cnt + 1) % 2 ^ s.params.cntWidth
      busy := if s.line = l then s.busy else false, phase := if s.line = l then .levelWait else .idle }) ∧
  (∀ (s : State) (l e0 : Level) (es : List Level), s.phase = .issue → s.busy = true → s.cur.instr? = some (.waitWhile l) →
    (∀ e ∈ es, s.lineWith e = l) →
    ∃ t, after (ticks (e0 :: es)) s = some t ∧ t.busy = true ∧ t.phase = .levelWait ∧
      (∀ e, s.lineWith e ≠ l → ∃ u, after (ticks (e0 :: (es ++ [e]))) s = some u ∧ u.busy = false ∧ u.phase = .idle ∧
        u.mode = s.mode ∧ u.olat = s.olat ∧ u.data = s.data))

/-- CAPTURE's ticks, one by one, with all each leaves unchanged: BeginCapture in the issue tick with CNT not zeroed
(43_edge_sampler.md R162, R163), and the three arms of the bit loop (R164, R165, R166). -/
def Obligations.CaptureTicks : Prop :=
  (AcceptsRow .capture ∧ encode .capture = 0x00000009) ∧
  (∀ s : State, s.phase = .issue →
    exec .capture s = .next { s with
      byteIdx := 0, bitIdx := 0, cnt := (s.cnt + 1) % 2 ^ s.params.cntWidth, phase := .capWaitLow }) ∧
  (∀ s : State, s.phase = .capWaitLow →
    exec .capture s = .next (if s.line = true then { s with cnt := 0, phase := .capDelay }
      else { s with cnt := (s.cnt + 1) % 2 ^ s.params.cntWidth })) ∧
  (∀ s : State, s.phase = .capDelay → ∃ t, exec .capture s = .next t ∧
    t = { s with data := t.data, cnt := (s.cnt + 1) % 2 ^ s.params.cntWidth, phase := t.phase } ∧
    ((s.cnt + 1) % 2 ^ s.params.cntWidth < 40 → t.phase = .capDelay ∧ t.data = s.data) ∧
    (40 ≤ (s.cnt + 1) % 2 ^ s.params.cntWidth → t.phase = .capWaitHigh ∧
      ∀ (j : Fin 5) (b : Fin 8), t.data[j.val].getLsbD b.val =
        if j = s.byteIdx ∧ b.val = 7 - s.bitIdx.val then s.line else s.data[j.val].getLsbD b.val)) ∧
  (∀ s : State, s.phase = .capWaitHigh → ∃ t, exec .capture s = .next t ∧
    t = { s with
      cnt := (s.cnt + 1) % 2 ^ s.params.cntWidth, ok := t.ok, busy := t.busy, phase := t.phase
      byteIdx := t.byteIdx, bitIdx := t.bitIdx } ∧
    (s.line = true → t.ok = s.ok ∧ t.busy = s.busy ∧ t.phase = .capWaitHigh ∧ t.byteIdx = s.byteIdx ∧ t.bitIdx = s.bitIdx) ∧
    (s.line = false → s.byteIdx.val = 4 → s.bitIdx.val = 7 →
      t.ok = true ∧ t.busy = false ∧ t.phase = .idle ∧ t.byteIdx = s.byteIdx ∧ t.bitIdx = s.bitIdx) ∧
    (s.line = false → ¬ (s.byteIdx.val = 4 ∧ s.bitIdx.val = 7) →
      t.ok = s.ok ∧ t.busy = s.busy ∧ t.phase = .capWaitLow ∧
      8 * t.byteIdx.val + t.bitIdx.val = 8 * s.byteIdx.val + s.bitIdx.val + 1))

/-- READ's ticks: START's issue actions and waveform, BeginCapture where START completes, and then CAPTURE's arms
(43_edge_sampler.md R167, 42_start_signal.md R142). -/
def Obligations.ReadTicks : Prop :=
  (AcceptsRow .read ∧ encode .read = 0x0000000A) ∧
  (∀ s : State, s.phase = .issue →
    exec .read s = .next { s with mode := .output, olat := false, cnt := 0, phase := .startLow }) ∧
  (∀ s : State, s.phase = .startHigh → s.cur.op = 0xA →
    exec .read s = .next (if 30 ≤ (s.cnt + 1) % 2 ^ s.params.cntWidth
      then { s with
        mode := .input, cnt := (s.cnt + 1) % 2 ^ s.params.cntWidth, byteIdx := 0, bitIdx := 0, phase := .capWaitLow }
      else { s with cnt := (s.cnt + 1) % 2 ^ s.params.cntWidth })) ∧
  (∀ s : State, s.phase = .startLow → exec .read s = exec .start s) ∧
  (∀ s : State, s.phase.inBitLoop = true → exec .read s = exec .capture s)

/-- 43_edge_sampler.md R169: on a clean waveform the loop stores bit k, at DATA[k div 8] bit 7 - (k mod 8), as 1 exactly where h_k > 40,
and completes in tick E_39 + max(h_39, 41) and in no tick before, with CNT = max(h_39, 41) modulo 2^W (00_scope.md R11) and OK = 1. -/
def Obligations.CleanWaveformDecodes : Prop :=
  ∀ (s : State) (lead : Nat) (ps : List Pulse),
    s.params.Legal → s.mode = .input → s.busy = true → s.phase = .capWaitLow → s.byteIdx = 0 → s.bitIdx = 0 →
    1 ≤ lead → ps.length = 40 → (∀ p ∈ ps, p.clean) →
    (∃ t, after (ticks ((waveform lead ps).take (lead + loopTicks ps))) s = some t ∧
      t.busy = false ∧ t.phase = .idle ∧ t.ok = true ∧ t.byteIdx.val = 4 ∧ t.bitIdx.val = 7 ∧
      t.mode = s.mode ∧ t.olat = s.olat ∧ t.level = s.level ∧ t.err = s.err ∧ t.errCause = s.errCause ∧ t.cur = s.cur ∧
      (∀ p, ps.getLast? = some p → t.cnt = max p.high 41 % 2 ^ s.params.cntWidth) ∧
      ∀ (k : Nat) (p : Pulse), ps[k]? = some p →
        ((t.data.toList.getD (k / 8) 0).getLsbD (7 - k % 8) = decide (40 < p.high))) ∧
    (∀ n, n < lead + loopTicks ps → ∃ u, after (ticks ((waveform lead ps).take n)) s = some u ∧ u.busy = true)

/-- The whole READ (43_edge_sampler.md R167, R168, R169; 41_pin_mux.md R129): after the start signal, during which the line may do anything,
a clean waveform is decoded as R169 says, and READ completes in tick E_39 + max(h_39, 41) and in no tick before, with OK = 1,
CNT = max(h_39, 41) modulo 2^W (00_scope.md R11) and the pin in input mode. -/
def Obligations.ReadDecodesCleanWaveform : Prop :=
  ∀ (s : State) (es : List Level) (lead : Nat) (ps : List Pulse),
    s.params.Legal → s.phase = .issue → s.busy = true → s.cur.instr? = some .read → es.length = s.params.startLowUs + 31 →
    1 ≤ lead → ps.length = 40 → (∀ p ∈ ps, p.clean) →
    (∃ t, after (ticks ((es ++ waveform lead ps).take (es.length + lead + loopTicks ps))) s = some t ∧
      t.busy = false ∧ t.phase = .idle ∧ t.ok = true ∧ t.mode = .input ∧ t.olat = true ∧ t.level = s.level ∧
      t.err = s.err ∧ t.errCause = s.errCause ∧
      (∀ p, ps.getLast? = some p → t.cnt = max p.high 41 % 2 ^ s.params.cntWidth) ∧
      ∀ (k : Nat) (p : Pulse), ps[k]? = some p →
        ((t.data.toList.getD (k / 8) 0).getLsbD (7 - k % 8) = decide (40 < p.high))) ∧
    (∀ n, n < es.length + lead + loopTicks ps →
      ∃ u, after (ticks ((es ++ waveform lead ps).take n)) s = some u ∧ u.busy = true)

/-- 43_edge_sampler.md R174, R25: in a bit loop the steps not yet reached keep their old bits, and the bits of the steps done, all 40 of
them after completion, do not depend on what DATA held before. -/
def Obligations.CaptureOverwritesData : Prop :=
  ∀ (s : State) (d : Vector Byte 5) (es : List Level), s.phase = .capWaitLow → s.byteIdx = 0 → s.bitIdx = 0 →
    ∃ t d', after (ticks es) s = some t ∧ after (ticks es) { s with data := d } = some { t with data := d' } ∧
      (t.phase = .idle → d' = t.data) ∧
      ∀ k, k < 40 →
        (k < 8 * t.byteIdx.val + t.bitIdx.val →
          (d'.toList.getD (k / 8) 0).getLsbD (7 - k % 8) = (t.data.toList.getD (k / 8) 0).getLsbD (7 - k % 8)) ∧
        (8 * t.byteIdx.val + t.bitIdx.val < k →
          (t.data.toList.getD (k / 8) 0).getLsbD (7 - k % 8) = (s.data.toList.getD (k / 8) 0).getLsbD (7 - k % 8))

/-- 43_edge_sampler.md R173: CAP_WAITLOW, CAP_WAITHIGH and LEVEL_WAIT have no bound: while the line holds the awaited level, no number of
ticks and no host access, a command error or a clearing of it among them, ends the command. -/
def Obligations.WaitsAreUnbounded : Prop :=
  ∀ (s : State) (l : Level) (ts : List Turn), s.busy = true →
    ((s.phase = .capWaitLow ∧ l = false) ∨ (s.phase = .capWaitHigh ∧ l = true) ∨ (s.phase = .levelWait ∧ l = s.cur.l)) →
    ((s.mode = .output ∧ s.olat = l ∧ ∀ turn ∈ ts, turn ≠ .reset) ∨
      (s.mode = .input ∧ ∀ turn ∈ ts, turn.hostOrTickAt l = true)) →
    (∀ t, after ts s = some t →
      t.busy = true ∧ t.phase = s.phase ∧ t.byteIdx = s.byteIdx ∧ t.bitIdx = s.bitIdx ∧ t.data = s.data ∧ t.ok = s.ok ∧
        t.mode = s.mode ∧ t.olat = s.olat ∧ t.cur = s.cur) ∧
    ((∃ es, ts = ticks es) → ∃ t, after ts s = some t ∧ t.cnt % 2 ^ s.params.cntWidth = (s.cnt + ts.length) % 2 ^ s.params.cntWidth)

/-- 43_edge_sampler.md R175: CAPTURE in OUT mode, from its issue tick t0: with OLAT = 0 it hangs in CAP_WAITLOW at J = 0, I = 0 with DATA
unchanged; with OLAT = 1 it detects a rise in t0 + 1, samples DATA[0] bit 7 as 1 in t0 + 41 and hangs in CAP_WAITHIGH; whatever ENV does. -/
def Obligations.CaptureInOutputMode : Prop :=
  ∀ (s : State) (es : List Level), s.params.Legal → s.mode = .output → s.phase = .issue → s.busy = true →
    s.cur.instr? = some .capture →
    ∃ t, after (ticks es) s = some t ∧ t.busy = true ∧ t.mode = .output ∧
      (s.olat = false → 1 ≤ es.length → t.phase = .capWaitLow ∧ t.byteIdx = 0 ∧ t.bitIdx = 0 ∧ t.data = s.data) ∧
      (s.olat = true → es.length = 2 → t.phase = .capDelay ∧ t.cnt = 0) ∧
      (s.olat = true → 2 ≤ es.length → es.length ≤ 41 → t.phase = .capDelay ∧ t.data = s.data) ∧
      (s.olat = true → 42 ≤ es.length → t.phase = .capWaitHigh ∧ t.byteIdx = 0 ∧ t.bitIdx = 0 ∧
        t.data[0].getLsbD 7 = true ∧ ∀ (j : Fin 5) (b : Fin 8), ¬ (j = 0 ∧ b = 7) → t.data[j.val].getLsbD b.val = s.data[j.val].getLsbD b.val)

/-- 43_edge_sampler.md R176: READ and CAPTURE, and every command, go the same way however HOST is scheduled: any host accesses between
the ticks of a command in progress leave everything SEQ works with as it is without them, up to the tick that completes the command. -/
def Obligations.HostScheduleInvisible : Prop :=
  ∀ (s t u : State) (ts : List Turn) (e : Level), s.busy = true → s.phase ≠ .idle → (∀ turn ∈ ts, turn.hostOrGiven = true) →
    (∀ n v, after (ticks ((givenLevels ts).take n)) s = some v → v.busy = true ∧ v.phase ≠ .idle) →
    after (ts ++ [.tick (some e)]) s = some t → after (ticks (givenLevels ts ++ [e])) s = some u →
    t.sameSeq u

/-- Which steps write DATA, LEVEL, OK and CUR (10_state.md R25, R28, R30, R33): DATA changes only in a CAP_DELAY tick of CAPTURE or READ
or at Reset; LEVEL only in SENSE's tick or at Reset; OK rises only in the tick in which CAP_WAITHIGH ends bit 39, and falls only where HOST's
CMD write is accepted or at Reset; CUR changes only at acceptance, which latches the word's fields, or at Reset. -/
def Obligations.FieldWriters : Prop :=
  ∀ (s t : State), s.Inv → step s = .next t →
    (t.data ≠ s.data → (∃ rest, s.turns = .reset :: rest) ∨
      (s.ticking ∧ s.phase = .capDelay ∧ (s.cur.instr? = some .capture ∨ s.cur.instr? = some .read))) ∧
    (t.level ≠ s.level → (∃ rest, s.turns = .reset :: rest) ∨ (s.ticking ∧ s.phase = .issue ∧ s.cur.instr? = some .sense)) ∧
    (s.ok = false → t.ok = true → s.ticking ∧ s.phase = .capWaitHigh ∧ s.lastBit = true ∧ t.busy = false ∧
      (s.cur.instr? = some .capture ∨ s.cur.instr? = some .read)) ∧
    (s.ok = true → t.ok = false → (∃ rest, s.turns = .reset :: rest) ∨
      ∃ w i, s.writing 0x00 w ∧ s.busy = false ∧ decode w = .cmd i ∧ t.busy = true ∧ t.phase = .issue) ∧
    (t.cur ≠ s.cur → (∃ rest, s.turns = .reset :: rest) ∨
      ∃ w i, s.writing 0x00 w ∧ s.busy = false ∧ decode w = .cmd i ∧ t.busy = true ∧ t.phase = .issue ∧ t.ok = false ∧
        t.cur = { op := w.extractLsb' 0 4, l := w.getLsbD 4, us := w.extractLsb' 16 16 })

/-! ### Reset (70_reset_and_hazards.md) -/

/-- 70_reset_and_hazards.md R230: a Reset step sets every element of 10_state.md R20 to its reset value, from any state; no tick runs in
it; the first tick after it is an idle one, in which CNT becomes 1. -/
def Obligations.ResetValues : Prop :=
  ∀ (s : State) (rest : List Turn), s.turns = .reset :: rest →
    ∃ t, step s = .next t ∧
      (t.mode = .input ∧ t.olat = false ∧ t.cnt = 0 ∧ (∀ j : Fin 5, t.data[j.val] = 0x00) ∧ t.busy = false ∧ t.level = false ∧
        t.err = false ∧ t.errCause = .noError ∧ t.ok = false ∧ t.phase = .idle ∧ t.bitIdx.val = 0 ∧ t.byteIdx.val = 0 ∧
        t.cur.op = 0 ∧ t.cur.l = false ∧ t.cur.us = 0) ∧
      t.sameBlock { State.reset with params := s.params } ∧
      t.params = s.params ∧ t.turns = rest ∧ t.program = s.program ∧
      (s.params.Legal → ∀ e, ∃ u, after (ticks [e]) t = some u ∧ u.cnt = 1 ∧ u.sameBlock { t with cnt := 1 })

/-- 70_reset_and_hazards.md R231 and R232: Reset ends any command in progress, a hang among them, without completion: OK is not set, DATA
is 0, and SWSI does not drive the line. -/
def Obligations.ResetEndsHang : Prop :=
  ∀ (s : State) (es : List Level), s.params.Legal →
    ∃ t, after (.reset :: ticks es) s = some t ∧ t.busy = false ∧ t.phase = .idle ∧ t.ok = false ∧
      t.data = Vector.replicate 5 0x00 ∧ t.mode = .input ∧ ∀ e, t.lineWith e = e

/-! ### Whole-machine statements -/

/-- 10_state.md R39: every step keeps the rule's five invariants. -/
def Obligations.StepKeepsStatusInv : Prop :=
  ∀ (s t : State), s.StatusInv → step s = .next t → t.StatusInv

/-- The invariants of 10_state.md R39 and the model's own hold at reset. -/
def Obligations.ResetMeetsInv : Prop :=
  State.reset.StatusInv ∧ State.reset.Inv

/-- Every step keeps the invariant: R39's relations, a legal command in CUR with PHASE one of its phases, no timed wait overdue, the pin
driven low then high in the start signal, OK only after a completed CAPTURE or READ, and the pin in input mode after READ. -/
def Obligations.StepKeepsInv : Prop :=
  ∀ (s t : State), s.Inv → step s = .next t → t.Inv

/-- In a state that meets the invariant every step has a next state, but for a bus access or a program access that is not admitted
(20_memory.md R52): no command ever stops the machine (60_exceptions.md R205). -/
def Obligations.OnlyAccessesRefused : Prop :=
  ∀ s : State, s.Inv →
    (∃ t, step s = .next t) ∨
      (((∃ a rest, s.turns = .access a :: rest) ∨ ∃ rest op ops, s.turns = .program :: rest ∧ s.program = op :: ops) ∧
        (step s = .refused .accessSize ∨ step s = .refused .accessWindow ∨ step s = .refused .accessAlignment))

/-- 70_reset_and_hazards.md R250: no command completes in fewer ticks, t0 included, than the table gives: 1 for the one-tick commands,
n + 1 for DELAY #n, 2 for WAIT_WHILE, T_START_LOW_US + 31 for START, 1681 for CAPTURE, T_START_LOW_US + 1711 for READ; and those with
no wait on the line complete in exactly that many. -/
def Obligations.CommandDurations : Prop :=
  ∀ (s t : State) (i : Instr) (es : List Level), s.params.Legal → s.phase = .issue → s.busy = true → s.cur.instr? = some i →
    after (ticks es) s = some t →
    (es.length < minTicks s.params i → t.busy = true) ∧
    (es.length = minTicks s.params i → i ≠ .capture → i ≠ .read → (∀ l, i ≠ .waitWhile l) → t.busy = false)

/-- 43_edge_sampler.md R168 and R172: a capture that completes sets OK = 1 whatever was sampled, with J = 4 and I = 7; and DATA[4] is
stored like any byte: the bits of a capture do not depend on one another's sum, so two states that differ in DATA alone step alike. -/
def Obligations.DataNeverSteers : Prop :=
  ∀ (s : State) (d : Vector Byte 5) (es : List Level) (t : State),
    after (ticks es) s = some t →
    ∃ d', after (ticks es) { s with data := d } = some { t with data := d' }

/-! ### Host programs (30_encoding.md R78, R79) -/

/-- 30_encoding.md R78: the register accesses of each host statement, and the steps that make them: a POLL reads STATUS and has completed
exactly when the read returns BUSY = 0; an RD keeps the value of its register; a write of the program is the MemWrite at its offset. -/
def Obligations.HostStatements : Prop :=
  (∀ i : Instr, i.wf = true → expandStmt (.cmd i) = some [.write 0x00 (encode i), .poll] ∧
    expandStmt (.issue i) = some [.write 0x00 (encode i)]) ∧
  (∀ w : Word, expandStmt (.wrcmd w) = some [.write 0x00 w]) ∧ expandStmt .poll = some [.poll] ∧
  expandStmt .clrerr = some [.write 0x04 0x00000010] ∧
  expandStmt (.rd .status) = some [.read 0x04] ∧ expandStmt (.rd .cnt) = some [.read 0x08] ∧
  (∀ j : Fin 5, expandStmt (.rd (.data j)) = some [.read (0x0C + 4 * j.val)]) ∧
  (∀ (s : State) (ops : List HostOp), s.program = .poll :: ops →
    ∃ t, after [.program] s = some t ∧ t.rdata = s.readReg 0x04 ∧ t.rdata.getLsbD 0 = s.busy ∧
      (s.busy = true → t.program = .poll :: ops) ∧ (s.busy = false → t.program = ops) ∧ t.sameBlock s) ∧
  (∀ (s : State) (off : Nat) (ops : List HostOp), off < 0x40 → off % 4 = 0 → s.program = .read off :: ops →
    ∃ t, after [.program] s = some t ∧ t.rdata = s.readReg off ∧ t.vars = s.vars ++ [s.readReg off] ∧ t.program = ops ∧
      t.sameBlock s) ∧
  (∀ (s : State) (off : Nat) (v : Word) (ops : List HostOp), off < 0x40 → off % 4 = 0 → s.program = .write off v :: ops →
    ∃ t, after [.program] s = some t ∧ after [memWrite s off v] { s with program := ops } = some t ∧ t.program = ops)

/-- 30_encoding.md R79: the commands each pseudo-instruction stands for. -/
def Obligations.PseudoExpansions : Prop :=
  ∀ p : Params,
    (∀ l, expandPseudo p (.drive l) = [.write l, .cfgOut]) ∧ expandPseudo p .release = [.cfgIn] ∧
    expandPseudo p .untilHigh = [.waitWhile false] ∧ expandPseudo p .untilLow = [.waitWhile true] ∧
    expandPseudo p .startManual =
      [.write false, .cfgOut, .delay p.startLowUs, .write true, .delay 30, .cfgIn] ∧
    expandPseudo p .readSplit = [.start, .capture]

/-- 30_encoding.md R79: DRIVE #l, run by HOST from an idle SWSI with one tick after each CMD write, drives the level l and drives no stale
latch on the way: MODE and OLAT are the old mode and l before CFG_OUT's tick, and OUT and l after it. -/
def Obligations.DriveSetsLatchFirst : Prop :=
  ∀ (s : State) (l e1 e2 : Level) (ops : List HostOp), s.busy = false → s.phase = .idle →
    expandProgram ((expandPseudo s.params (.drive l)).map .cmd) = some ops →
    ∃ t u, after [.program, .tick (some e1), .program, .program] { s with program := ops } = some t ∧
      t.mode = s.mode ∧ t.olat = l ∧
      after [.program, .tick (some e1), .program, .program, .tick (some e2), .program] { s with program := ops } = some u ∧
      u.mode = .output ∧ u.olat = l ∧ u.busy = false ∧ u.program = []
end

