-- ==== Sys2Proof/Laws/Config.lean ====
section
/-! SUPPORT. What legal parameters give (spec/00_scope.md R8). -/

namespace Sys2Proof

theorem Params.cntRange_pos (p : Params) : 0 < p.cntRange := Nat.two_pow_pos _

/-- Legal parameters give CNT room for every 16-bit count (00_scope.md R8). -/
theorem Params.Legal.count_lt {p : Params} (h : p.Legal) : 65535 < p.cntRange :=
  calc 65535 < 2 ^ 16 := by norm_num
    _ ≤ p.cntRange := Nat.pow_le_pow_right (by norm_num) h.width_ge

/-- The low part of the start signal ends before CNT wraps (00_scope.md R8). -/
theorem Params.Legal.startLow_lt {p : Params} (h : p.Legal) : p.startLowUs < p.cntRange := by
  have := h.startLow_le
  have := Params.cntRange_pos p
  omega

/-- Every CNT value fits the 32 bits HOST reads (10_state.md R36). -/
theorem Params.Legal.cntRange_le {p : Params} (h : p.Legal) : p.cntRange ≤ 2 ^ 32 :=
  Nat.pow_le_pow_right (by norm_num) h.width_le

/-- The default parameters are legal, at any base. -/
theorem Config.defaultParams_legal : Config.defaultParams.Legal where
  width_ge := by decide
  width_le := by decide
  startLow_ge := by decide
  startLow_le := by decide
  base_aligned := Nat.mul_mod_right _ _

end Sys2Proof
end

