-- ==== Sys2Proof/Laws/State.lean ====
section
/-! SUPPORT. What each named update of State does to each field: one lemma per field per update. -/

namespace Sys2Proof.Machine

/-! ### the counter's default write (40_timer.md R101) -/

@[simp] theorem State.count_mode (s : State) : s.count.mode = s.mode := rfl
@[simp] theorem State.count_olat (s : State) : s.count.olat = s.olat := rfl
@[simp] theorem State.count_cnt (s : State) : s.count.cnt = s.nextCnt := rfl
@[simp] theorem State.count_data (s : State) : s.count.data = s.data := rfl
@[simp] theorem State.count_busy (s : State) : s.count.busy = s.busy := rfl
@[simp] theorem State.count_level (s : State) : s.count.level = s.level := rfl
@[simp] theorem State.count_err (s : State) : s.count.err = s.err := rfl
@[simp] theorem State.count_errCause (s : State) : s.count.errCause = s.errCause := rfl
@[simp] theorem State.count_ok (s : State) : s.count.ok = s.ok := rfl
@[simp] theorem State.count_phase (s : State) : s.count.phase = s.phase := rfl
@[simp] theorem State.count_bitIdx (s : State) : s.count.bitIdx = s.bitIdx := rfl
@[simp] theorem State.count_byteIdx (s : State) : s.count.byteIdx = s.byteIdx := rfl
@[simp] theorem State.count_cur (s : State) : s.count.cur = s.cur := rfl
@[simp] theorem State.count_params (s : State) : s.count.params = s.params := rfl
@[simp] theorem State.count_env (s : State) : s.count.env = s.env := rfl
@[simp] theorem State.count_draws (s : State) : s.count.draws = s.draws := rfl
@[simp] theorem State.count_turns (s : State) : s.count.turns = s.turns := rfl
@[simp] theorem State.count_program (s : State) : s.count.program = s.program := rfl
@[simp] theorem State.count_rdata (s : State) : s.count.rdata = s.rdata := rfl
@[simp] theorem State.count_vars (s : State) : s.count.vars = s.vars := rfl

/-! ### `Complete()` (40_timer.md R102) -/

@[simp] theorem State.complete_mode (s : State) : s.complete.mode = s.mode := rfl
@[simp] theorem State.complete_olat (s : State) : s.complete.olat = s.olat := rfl
@[simp] theorem State.complete_cnt (s : State) : s.complete.cnt = s.cnt := rfl
@[simp] theorem State.complete_data (s : State) : s.complete.data = s.data := rfl
@[simp] theorem State.complete_busy (s : State) : s.complete.busy = false := rfl
@[simp] theorem State.complete_level (s : State) : s.complete.level = s.level := rfl
@[simp] theorem State.complete_err (s : State) : s.complete.err = s.err := rfl
@[simp] theorem State.complete_errCause (s : State) : s.complete.errCause = s.errCause := rfl
@[simp] theorem State.complete_ok (s : State) : s.complete.ok = s.ok := rfl
@[simp] theorem State.complete_phase (s : State) : s.complete.phase = .idle := rfl
@[simp] theorem State.complete_bitIdx (s : State) : s.complete.bitIdx = s.bitIdx := rfl
@[simp] theorem State.complete_byteIdx (s : State) : s.complete.byteIdx = s.byteIdx := rfl
@[simp] theorem State.complete_cur (s : State) : s.complete.cur = s.cur := rfl
@[simp] theorem State.complete_params (s : State) : s.complete.params = s.params := rfl
@[simp] theorem State.complete_env (s : State) : s.complete.env = s.env := rfl
@[simp] theorem State.complete_draws (s : State) : s.complete.draws = s.draws := rfl
@[simp] theorem State.complete_turns (s : State) : s.complete.turns = s.turns := rfl
@[simp] theorem State.complete_program (s : State) : s.complete.program = s.program := rfl
@[simp] theorem State.complete_rdata (s : State) : s.complete.rdata = s.rdata := rfl
@[simp] theorem State.complete_vars (s : State) : s.complete.vars = s.vars := rfl

/-! ### the end of the bit loop (43_edge_sampler.md R166) -/

@[simp] theorem State.completeOk_mode (s : State) : s.completeOk.mode = s.mode := rfl
@[simp] theorem State.completeOk_olat (s : State) : s.completeOk.olat = s.olat := rfl
@[simp] theorem State.completeOk_cnt (s : State) : s.completeOk.cnt = s.cnt := rfl
@[simp] theorem State.completeOk_data (s : State) : s.completeOk.data = s.data := rfl
@[simp] theorem State.completeOk_busy (s : State) : s.completeOk.busy = false := rfl
@[simp] theorem State.completeOk_level (s : State) : s.completeOk.level = s.level := rfl
@[simp] theorem State.completeOk_err (s : State) : s.completeOk.err = s.err := rfl
@[simp] theorem State.completeOk_errCause (s : State) : s.completeOk.errCause = s.errCause := rfl
@[simp] theorem State.completeOk_ok (s : State) : s.completeOk.ok = true := rfl
@[simp] theorem State.completeOk_phase (s : State) : s.completeOk.phase = .idle := rfl
@[simp] theorem State.completeOk_bitIdx (s : State) : s.completeOk.bitIdx = s.bitIdx := rfl
@[simp] theorem State.completeOk_byteIdx (s : State) : s.completeOk.byteIdx = s.byteIdx := rfl
@[simp] theorem State.completeOk_cur (s : State) : s.completeOk.cur = s.cur := rfl
@[simp] theorem State.completeOk_params (s : State) : s.completeOk.params = s.params := rfl
@[simp] theorem State.completeOk_env (s : State) : s.completeOk.env = s.env := rfl
@[simp] theorem State.completeOk_draws (s : State) : s.completeOk.draws = s.draws := rfl
@[simp] theorem State.completeOk_turns (s : State) : s.completeOk.turns = s.turns := rfl
@[simp] theorem State.completeOk_program (s : State) : s.completeOk.program = s.program := rfl
@[simp] theorem State.completeOk_rdata (s : State) : s.completeOk.rdata = s.rdata := rfl
@[simp] theorem State.completeOk_vars (s : State) : s.completeOk.vars = s.vars := rfl

/-! ### acceptance (30_encoding.md R81) -/

@[simp] theorem State.accept_mode (s : State) (w : Word) : (s.accept w).mode = s.mode := rfl
@[simp] theorem State.accept_olat (s : State) (w : Word) : (s.accept w).olat = s.olat := rfl
@[simp] theorem State.accept_cnt (s : State) (w : Word) : (s.accept w).cnt = s.cnt := rfl
@[simp] theorem State.accept_data (s : State) (w : Word) : (s.accept w).data = s.data := rfl
@[simp] theorem State.accept_busy (s : State) (w : Word) : (s.accept w).busy = true := rfl
@[simp] theorem State.accept_level (s : State) (w : Word) : (s.accept w).level = s.level := rfl
@[simp] theorem State.accept_err (s : State) (w : Word) : (s.accept w).err = s.err := rfl
@[simp] theorem State.accept_errCause (s : State) (w : Word) : (s.accept w).errCause = s.errCause := rfl
@[simp] theorem State.accept_ok (s : State) (w : Word) : (s.accept w).ok = false := rfl
@[simp] theorem State.accept_phase (s : State) (w : Word) : (s.accept w).phase = .issue := rfl
@[simp] theorem State.accept_bitIdx (s : State) (w : Word) : (s.accept w).bitIdx = s.bitIdx := rfl
@[simp] theorem State.accept_byteIdx (s : State) (w : Word) : (s.accept w).byteIdx = s.byteIdx := rfl
@[simp] theorem State.accept_cur (s : State) (w : Word) : (s.accept w).cur = Cur.ofWord w := rfl
@[simp] theorem State.accept_params (s : State) (w : Word) : (s.accept w).params = s.params := rfl
@[simp] theorem State.accept_env (s : State) (w : Word) : (s.accept w).env = s.env := rfl
@[simp] theorem State.accept_draws (s : State) (w : Word) : (s.accept w).draws = s.draws := rfl
@[simp] theorem State.accept_turns (s : State) (w : Word) : (s.accept w).turns = s.turns := rfl
@[simp] theorem State.accept_program (s : State) (w : Word) : (s.accept w).program = s.program := rfl
@[simp] theorem State.accept_rdata (s : State) (w : Word) : (s.accept w).rdata = s.rdata := rfl
@[simp] theorem State.accept_vars (s : State) (w : Word) : (s.accept w).vars = s.vars := rfl

/-! ### clearing the error (60_exceptions.md R210) -/

@[simp] theorem State.clearErr_mode (s : State) : s.clearErr.mode = s.mode := rfl
@[simp] theorem State.clearErr_olat (s : State) : s.clearErr.olat = s.olat := rfl
@[simp] theorem State.clearErr_cnt (s : State) : s.clearErr.cnt = s.cnt := rfl
@[simp] theorem State.clearErr_data (s : State) : s.clearErr.data = s.data := rfl
@[simp] theorem State.clearErr_busy (s : State) : s.clearErr.busy = s.busy := rfl
@[simp] theorem State.clearErr_level (s : State) : s.clearErr.level = s.level := rfl
@[simp] theorem State.clearErr_err (s : State) : s.clearErr.err = false := rfl
@[simp] theorem State.clearErr_errCause (s : State) : s.clearErr.errCause = .noError := rfl
@[simp] theorem State.clearErr_ok (s : State) : s.clearErr.ok = s.ok := rfl
@[simp] theorem State.clearErr_phase (s : State) : s.clearErr.phase = s.phase := rfl
@[simp] theorem State.clearErr_bitIdx (s : State) : s.clearErr.bitIdx = s.bitIdx := rfl
@[simp] theorem State.clearErr_byteIdx (s : State) : s.clearErr.byteIdx = s.byteIdx := rfl
@[simp] theorem State.clearErr_cur (s : State) : s.clearErr.cur = s.cur := rfl
@[simp] theorem State.clearErr_params (s : State) : s.clearErr.params = s.params := rfl
@[simp] theorem State.clearErr_env (s : State) : s.clearErr.env = s.env := rfl
@[simp] theorem State.clearErr_draws (s : State) : s.clearErr.draws = s.draws := rfl
@[simp] theorem State.clearErr_turns (s : State) : s.clearErr.turns = s.turns := rfl
@[simp] theorem State.clearErr_program (s : State) : s.clearErr.program = s.program := rfl
@[simp] theorem State.clearErr_rdata (s : State) : s.clearErr.rdata = s.rdata := rfl
@[simp] theorem State.clearErr_vars (s : State) : s.clearErr.vars = s.vars := rfl

/-! ### the sample's write (43_edge_sampler.md R165) -/

@[simp] theorem State.storeBit_mode (s : State) (v : Level) : (s.storeBit v).mode = s.mode := rfl
@[simp] theorem State.storeBit_olat (s : State) (v : Level) : (s.storeBit v).olat = s.olat := rfl
@[simp] theorem State.storeBit_cnt (s : State) (v : Level) : (s.storeBit v).cnt = s.cnt := rfl
@[simp] theorem State.storeBit_data (s : State) (v : Level) : (s.storeBit v).data = s.data.set s.byteIdx.val (writeBit s.data[s.byteIdx.val] (7 - s.bitIdx.val) v) := rfl
@[simp] theorem State.storeBit_busy (s : State) (v : Level) : (s.storeBit v).busy = s.busy := rfl
@[simp] theorem State.storeBit_level (s : State) (v : Level) : (s.storeBit v).level = s.level := rfl
@[simp] theorem State.storeBit_err (s : State) (v : Level) : (s.storeBit v).err = s.err := rfl
@[simp] theorem State.storeBit_errCause (s : State) (v : Level) : (s.storeBit v).errCause = s.errCause := rfl
@[simp] theorem State.storeBit_ok (s : State) (v : Level) : (s.storeBit v).ok = s.ok := rfl
@[simp] theorem State.storeBit_phase (s : State) (v : Level) : (s.storeBit v).phase = s.phase := rfl
@[simp] theorem State.storeBit_bitIdx (s : State) (v : Level) : (s.storeBit v).bitIdx = s.bitIdx := rfl
@[simp] theorem State.storeBit_byteIdx (s : State) (v : Level) : (s.storeBit v).byteIdx = s.byteIdx := rfl
@[simp] theorem State.storeBit_cur (s : State) (v : Level) : (s.storeBit v).cur = s.cur := rfl
@[simp] theorem State.storeBit_params (s : State) (v : Level) : (s.storeBit v).params = s.params := rfl
@[simp] theorem State.storeBit_env (s : State) (v : Level) : (s.storeBit v).env = s.env := rfl
@[simp] theorem State.storeBit_draws (s : State) (v : Level) : (s.storeBit v).draws = s.draws := rfl
@[simp] theorem State.storeBit_turns (s : State) (v : Level) : (s.storeBit v).turns = s.turns := rfl
@[simp] theorem State.storeBit_program (s : State) (v : Level) : (s.storeBit v).program = s.program := rfl
@[simp] theorem State.storeBit_rdata (s : State) (v : Level) : (s.storeBit v).rdata = s.rdata := rfl
@[simp] theorem State.storeBit_vars (s : State) (v : Level) : (s.storeBit v).vars = s.vars := rfl

/-! ### `BeginCapture()` (43_edge_sampler.md R163) -/

@[simp] theorem State.beginCapture_mode (s : State) : s.beginCapture.mode = s.mode := rfl
@[simp] theorem State.beginCapture_olat (s : State) : s.beginCapture.olat = s.olat := rfl
@[simp] theorem State.beginCapture_cnt (s : State) : s.beginCapture.cnt = s.cnt := rfl
@[simp] theorem State.beginCapture_data (s : State) : s.beginCapture.data = s.data := rfl
@[simp] theorem State.beginCapture_busy (s : State) : s.beginCapture.busy = s.busy := rfl
@[simp] theorem State.beginCapture_level (s : State) : s.beginCapture.level = s.level := rfl
@[simp] theorem State.beginCapture_err (s : State) : s.beginCapture.err = s.err := rfl
@[simp] theorem State.beginCapture_errCause (s : State) : s.beginCapture.errCause = s.errCause := rfl
@[simp] theorem State.beginCapture_ok (s : State) : s.beginCapture.ok = s.ok := rfl
@[simp] theorem State.beginCapture_phase (s : State) : s.beginCapture.phase = .capWaitLow := rfl
@[simp] theorem State.beginCapture_bitIdx (s : State) : s.beginCapture.bitIdx = 0 := rfl
@[simp] theorem State.beginCapture_byteIdx (s : State) : s.beginCapture.byteIdx = 0 := rfl
@[simp] theorem State.beginCapture_cur (s : State) : s.beginCapture.cur = s.cur := rfl
@[simp] theorem State.beginCapture_params (s : State) : s.beginCapture.params = s.params := rfl
@[simp] theorem State.beginCapture_env (s : State) : s.beginCapture.env = s.env := rfl
@[simp] theorem State.beginCapture_draws (s : State) : s.beginCapture.draws = s.draws := rfl
@[simp] theorem State.beginCapture_turns (s : State) : s.beginCapture.turns = s.turns := rfl
@[simp] theorem State.beginCapture_program (s : State) : s.beginCapture.program = s.program := rfl
@[simp] theorem State.beginCapture_rdata (s : State) : s.beginCapture.rdata = s.rdata := rfl
@[simp] theorem State.beginCapture_vars (s : State) : s.beginCapture.vars = s.vars := rfl

/-! ### the issue actions of START and READ (42_start_signal.md R140) -/

@[simp] theorem State.beginStart_mode (s : State) : s.beginStart.mode = .output := rfl
@[simp] theorem State.beginStart_olat (s : State) : s.beginStart.olat = false := rfl
@[simp] theorem State.beginStart_cnt (s : State) : s.beginStart.cnt = 0 := rfl
@[simp] theorem State.beginStart_data (s : State) : s.beginStart.data = s.data := rfl
@[simp] theorem State.beginStart_busy (s : State) : s.beginStart.busy = s.busy := rfl
@[simp] theorem State.beginStart_level (s : State) : s.beginStart.level = s.level := rfl
@[simp] theorem State.beginStart_err (s : State) : s.beginStart.err = s.err := rfl
@[simp] theorem State.beginStart_errCause (s : State) : s.beginStart.errCause = s.errCause := rfl
@[simp] theorem State.beginStart_ok (s : State) : s.beginStart.ok = s.ok := rfl
@[simp] theorem State.beginStart_phase (s : State) : s.beginStart.phase = .startLow := rfl
@[simp] theorem State.beginStart_bitIdx (s : State) : s.beginStart.bitIdx = s.bitIdx := rfl
@[simp] theorem State.beginStart_byteIdx (s : State) : s.beginStart.byteIdx = s.byteIdx := rfl
@[simp] theorem State.beginStart_cur (s : State) : s.beginStart.cur = s.cur := rfl
@[simp] theorem State.beginStart_params (s : State) : s.beginStart.params = s.params := rfl
@[simp] theorem State.beginStart_env (s : State) : s.beginStart.env = s.env := rfl
@[simp] theorem State.beginStart_draws (s : State) : s.beginStart.draws = s.draws := rfl
@[simp] theorem State.beginStart_turns (s : State) : s.beginStart.turns = s.turns := rfl
@[simp] theorem State.beginStart_program (s : State) : s.beginStart.program = s.program := rfl
@[simp] theorem State.beginStart_rdata (s : State) : s.beginStart.rdata = s.rdata := rfl
@[simp] theorem State.beginStart_vars (s : State) : s.beginStart.vars = s.vars := rfl

/-! ### a register read (20_memory.md R54) -/

@[simp] theorem State.hostRead_mode (s : State) (off : Nat) : (s.hostRead off).mode = s.mode := rfl
@[simp] theorem State.hostRead_olat (s : State) (off : Nat) : (s.hostRead off).olat = s.olat := rfl
@[simp] theorem State.hostRead_cnt (s : State) (off : Nat) : (s.hostRead off).cnt = s.cnt := rfl
@[simp] theorem State.hostRead_data (s : State) (off : Nat) : (s.hostRead off).data = s.data := rfl
@[simp] theorem State.hostRead_busy (s : State) (off : Nat) : (s.hostRead off).busy = s.busy := rfl
@[simp] theorem State.hostRead_level (s : State) (off : Nat) : (s.hostRead off).level = s.level := rfl
@[simp] theorem State.hostRead_err (s : State) (off : Nat) : (s.hostRead off).err = s.err := rfl
@[simp] theorem State.hostRead_errCause (s : State) (off : Nat) : (s.hostRead off).errCause = s.errCause := rfl
@[simp] theorem State.hostRead_ok (s : State) (off : Nat) : (s.hostRead off).ok = s.ok := rfl
@[simp] theorem State.hostRead_phase (s : State) (off : Nat) : (s.hostRead off).phase = s.phase := rfl
@[simp] theorem State.hostRead_bitIdx (s : State) (off : Nat) : (s.hostRead off).bitIdx = s.bitIdx := rfl
@[simp] theorem State.hostRead_byteIdx (s : State) (off : Nat) : (s.hostRead off).byteIdx = s.byteIdx := rfl
@[simp] theorem State.hostRead_cur (s : State) (off : Nat) : (s.hostRead off).cur = s.cur := rfl
@[simp] theorem State.hostRead_params (s : State) (off : Nat) : (s.hostRead off).params = s.params := rfl
@[simp] theorem State.hostRead_env (s : State) (off : Nat) : (s.hostRead off).env = s.env := rfl
@[simp] theorem State.hostRead_draws (s : State) (off : Nat) : (s.hostRead off).draws = s.draws := rfl
@[simp] theorem State.hostRead_turns (s : State) (off : Nat) : (s.hostRead off).turns = s.turns := rfl
@[simp] theorem State.hostRead_program (s : State) (off : Nat) : (s.hostRead off).program = s.program := rfl
@[simp] theorem State.hostRead_rdata (s : State) (off : Nat) : (s.hostRead off).rdata = s.readReg off := rfl
@[simp] theorem State.hostRead_vars (s : State) (off : Nat) : (s.hostRead off).vars = s.vars := rfl

/-! ### ENV's draw (41_pin_mux.md R120) -/

@[simp] theorem State.draw_mode (s : State) (e : Option Level) : (s.draw e).mode = s.mode := rfl
@[simp] theorem State.draw_olat (s : State) (e : Option Level) : (s.draw e).olat = s.olat := rfl
@[simp] theorem State.draw_cnt (s : State) (e : Option Level) : (s.draw e).cnt = s.cnt := rfl
@[simp] theorem State.draw_data (s : State) (e : Option Level) : (s.draw e).data = s.data := rfl
@[simp] theorem State.draw_busy (s : State) (e : Option Level) : (s.draw e).busy = s.busy := rfl
@[simp] theorem State.draw_level (s : State) (e : Option Level) : (s.draw e).level = s.level := rfl
@[simp] theorem State.draw_err (s : State) (e : Option Level) : (s.draw e).err = s.err := rfl
@[simp] theorem State.draw_errCause (s : State) (e : Option Level) : (s.draw e).errCause = s.errCause := rfl
@[simp] theorem State.draw_ok (s : State) (e : Option Level) : (s.draw e).ok = s.ok := rfl
@[simp] theorem State.draw_phase (s : State) (e : Option Level) : (s.draw e).phase = s.phase := rfl
@[simp] theorem State.draw_bitIdx (s : State) (e : Option Level) : (s.draw e).bitIdx = s.bitIdx := rfl
@[simp] theorem State.draw_byteIdx (s : State) (e : Option Level) : (s.draw e).byteIdx = s.byteIdx := rfl
@[simp] theorem State.draw_cur (s : State) (e : Option Level) : (s.draw e).cur = s.cur := rfl
@[simp] theorem State.draw_params (s : State) (e : Option Level) : (s.draw e).params = s.params := rfl
@[simp] theorem State.draw_env (s : State) (e : Option Level) : (s.draw e).env = e.getD (Config.envLevel s.draws) := rfl
@[simp] theorem State.draw_draws (s : State) (e : Option Level) : (s.draw e).draws = s.draws + 1 := rfl
@[simp] theorem State.draw_turns (s : State) (e : Option Level) : (s.draw e).turns = s.turns := rfl
@[simp] theorem State.draw_program (s : State) (e : Option Level) : (s.draw e).program = s.program := rfl
@[simp] theorem State.draw_rdata (s : State) (e : Option Level) : (s.draw e).rdata = s.rdata := rfl
@[simp] theorem State.draw_vars (s : State) (e : Option Level) : (s.draw e).vars = s.vars := rfl

/-! ### Reset (70_reset_and_hazards.md R230) -/

@[simp] theorem State.applyReset_mode (s : State) : s.applyReset.mode = .input := rfl
@[simp] theorem State.applyReset_olat (s : State) : s.applyReset.olat = false := rfl
@[simp] theorem State.applyReset_cnt (s : State) : s.applyReset.cnt = 0 := rfl
@[simp] theorem State.applyReset_data (s : State) : s.applyReset.data = Vector.replicate 5 0x00 := rfl
@[simp] theorem State.applyReset_busy (s : State) : s.applyReset.busy = false := rfl
@[simp] theorem State.applyReset_level (s : State) : s.applyReset.level = false := rfl
@[simp] theorem State.applyReset_err (s : State) : s.applyReset.err = false := rfl
@[simp] theorem State.applyReset_errCause (s : State) : s.applyReset.errCause = .noError := rfl
@[simp] theorem State.applyReset_ok (s : State) : s.applyReset.ok = false := rfl
@[simp] theorem State.applyReset_phase (s : State) : s.applyReset.phase = .idle := rfl
@[simp] theorem State.applyReset_bitIdx (s : State) : s.applyReset.bitIdx = 0 := rfl
@[simp] theorem State.applyReset_byteIdx (s : State) : s.applyReset.byteIdx = 0 := rfl
@[simp] theorem State.applyReset_cur (s : State) : s.applyReset.cur = { op := 0, l := false, us := 0 } := rfl
@[simp] theorem State.applyReset_params (s : State) : s.applyReset.params = s.params := rfl
@[simp] theorem State.applyReset_env (s : State) : s.applyReset.env = s.env := rfl
@[simp] theorem State.applyReset_draws (s : State) : s.applyReset.draws = s.draws + 1 := rfl
@[simp] theorem State.applyReset_turns (s : State) : s.applyReset.turns = s.turns := rfl
@[simp] theorem State.applyReset_program (s : State) : s.applyReset.program = s.program := rfl
@[simp] theorem State.applyReset_rdata (s : State) : s.applyReset.rdata = s.rdata := rfl
@[simp] theorem State.applyReset_vars (s : State) : s.applyReset.vars = s.vars := rfl

/-! ### The command error (60_exceptions.md R201) -/

theorem State.cmdError_of_err (s : State) (c : ErrCause) (h : s.err = true) : s.cmdError c = s := by
  simp [State.cmdError, h]

theorem State.cmdError_of_not_err (s : State) (c : ErrCause) (h : s.err = false) :
    s.cmdError c = { s with err := true, errCause := c } := by
  simp [State.cmdError, h]

@[simp] theorem State.cmdError_mode (s : State) (c : ErrCause) : (s.cmdError c).mode = s.mode := by
  unfold State.cmdError; split <;> rfl
@[simp] theorem State.cmdError_olat (s : State) (c : ErrCause) : (s.cmdError c).olat = s.olat := by
  unfold State.cmdError; split <;> rfl
@[simp] theorem State.cmdError_cnt (s : State) (c : ErrCause) : (s.cmdError c).cnt = s.cnt := by
  unfold State.cmdError; split <;> rfl
@[simp] theorem State.cmdError_data (s : State) (c : ErrCause) : (s.cmdError c).data = s.data := by
  unfold State.cmdError; split <;> rfl
@[simp] theorem State.cmdError_busy (s : State) (c : ErrCause) : (s.cmdError c).busy = s.busy := by
  unfold State.cmdError; split <;> rfl
@[simp] theorem State.cmdError_level (s : State) (c : ErrCause) : (s.cmdError c).level = s.level := by
  unfold State.cmdError; split <;> rfl
@[simp] theorem State.cmdError_ok (s : State) (c : ErrCause) : (s.cmdError c).ok = s.ok := by
  unfold State.cmdError; split <;> rfl
@[simp] theorem State.cmdError_phase (s : State) (c : ErrCause) : (s.cmdError c).phase = s.phase := by
  unfold State.cmdError; split <;> rfl
@[simp] theorem State.cmdError_bitIdx (s : State) (c : ErrCause) : (s.cmdError c).bitIdx = s.bitIdx := by
  unfold State.cmdError; split <;> rfl
@[simp] theorem State.cmdError_byteIdx (s : State) (c : ErrCause) : (s.cmdError c).byteIdx = s.byteIdx := by
  unfold State.cmdError; split <;> rfl
@[simp] theorem State.cmdError_cur (s : State) (c : ErrCause) : (s.cmdError c).cur = s.cur := by
  unfold State.cmdError; split <;> rfl
@[simp] theorem State.cmdError_params (s : State) (c : ErrCause) : (s.cmdError c).params = s.params := by
  unfold State.cmdError; split <;> rfl
@[simp] theorem State.cmdError_env (s : State) (c : ErrCause) : (s.cmdError c).env = s.env := by
  unfold State.cmdError; split <;> rfl
@[simp] theorem State.cmdError_draws (s : State) (c : ErrCause) : (s.cmdError c).draws = s.draws := by
  unfold State.cmdError; split <;> rfl
@[simp] theorem State.cmdError_turns (s : State) (c : ErrCause) : (s.cmdError c).turns = s.turns := by
  unfold State.cmdError; split <;> rfl
@[simp] theorem State.cmdError_program (s : State) (c : ErrCause) : (s.cmdError c).program = s.program := by
  unfold State.cmdError; split <;> rfl
@[simp] theorem State.cmdError_rdata (s : State) (c : ErrCause) : (s.cmdError c).rdata = s.rdata := by
  unfold State.cmdError; split <;> rfl
@[simp] theorem State.cmdError_vars (s : State) (c : ErrCause) : (s.cmdError c).vars = s.vars := by
  unfold State.cmdError; split <;> rfl
@[simp] theorem State.cmdError_err (s : State) (c : ErrCause) : (s.cmdError c).err = true := by
  unfold State.cmdError; split <;> simp_all
@[simp] theorem State.cmdError_errCause (s : State) (c : ErrCause) :
    (s.cmdError c).errCause = if s.err then s.errCause else c := by
  unfold State.cmdError; split <;> simp_all

/-! ### The advance to the next bit (43_edge_sampler.md R166) -/

@[simp] theorem State.advanceBit_mode (s : State) : s.advanceBit.mode = s.mode := by
  unfold State.advanceBit; split <;> rfl
@[simp] theorem State.advanceBit_olat (s : State) : s.advanceBit.olat = s.olat := by
  unfold State.advanceBit; split <;> rfl
@[simp] theorem State.advanceBit_cnt (s : State) : s.advanceBit.cnt = s.cnt := by
  unfold State.advanceBit; split <;> rfl
@[simp] theorem State.advanceBit_data (s : State) : s.advanceBit.data = s.data := by
  unfold State.advanceBit; split <;> rfl
@[simp] theorem State.advanceBit_busy (s : State) : s.advanceBit.busy = s.busy := by
  unfold State.advanceBit; split <;> rfl
@[simp] theorem State.advanceBit_level (s : State) : s.advanceBit.level = s.level := by
  unfold State.advanceBit; split <;> rfl
@[simp] theorem State.advanceBit_err (s : State) : s.advanceBit.err = s.err := by
  unfold State.advanceBit; split <;> rfl
@[simp] theorem State.advanceBit_errCause (s : State) : s.advanceBit.errCause = s.errCause := by
  unfold State.advanceBit; split <;> rfl
@[simp] theorem State.advanceBit_ok (s : State) : s.advanceBit.ok = s.ok := by
  unfold State.advanceBit; split <;> rfl
@[simp] theorem State.advanceBit_cur (s : State) : s.advanceBit.cur = s.cur := by
  unfold State.advanceBit; split <;> rfl
@[simp] theorem State.advanceBit_params (s : State) : s.advanceBit.params = s.params := by
  unfold State.advanceBit; split <;> rfl
@[simp] theorem State.advanceBit_env (s : State) : s.advanceBit.env = s.env := by
  unfold State.advanceBit; split <;> rfl
@[simp] theorem State.advanceBit_draws (s : State) : s.advanceBit.draws = s.draws := by
  unfold State.advanceBit; split <;> rfl
@[simp] theorem State.advanceBit_turns (s : State) : s.advanceBit.turns = s.turns := by
  unfold State.advanceBit; split <;> rfl
@[simp] theorem State.advanceBit_program (s : State) : s.advanceBit.program = s.program := by
  unfold State.advanceBit; split <;> rfl
@[simp] theorem State.advanceBit_rdata (s : State) : s.advanceBit.rdata = s.rdata := by
  unfold State.advanceBit; split <;> rfl
@[simp] theorem State.advanceBit_vars (s : State) : s.advanceBit.vars = s.vars := by
  unfold State.advanceBit; split <;> rfl
@[simp] theorem State.advanceBit_phase (s : State) : s.advanceBit.phase = .capWaitLow := by
  unfold State.advanceBit; split <;> rfl

end Sys2Proof.Machine
end

