-- ==== Sys2Proof/Laws/Ops.lean ====
section
/-! SUPPORT. One lemma per shared operation: everything it can do. -/

namespace Sys2Proof.Machine

/-! ### The latched command -/

/-- DELAY in CUR waits for CUR.US. -/
theorem Cur.count_of_delay {c : Cur} {n : Nat} (h : c.instr? = some (.delay n)) : c.count = n := by
  unfold Cur.instr? instrOfFields at h
  split at h <;> simp_all [Cur.count]

/-- WAIT_WHILE in CUR waits on CUR.L. -/
theorem Cur.level_of_waitWhile {c : Cur} {l : Level} (h : c.instr? = some (.waitWhile l)) : c.l = l := by
  unfold Cur.instr? instrOfFields at h
  split at h <;> simp_all

/-! ### The line and the counter -/

theorem State.line_output {s : State} (h : s.mode = .output) : s.line = s.olat := by simp [State.line, h]

theorem State.line_input {s : State} (h : s.mode = .input) : s.line = s.env := by simp [State.line, h]

theorem State.nextCnt_lt (s : State) : s.nextCnt < s.params.cntRange := Nat.mod_lt _ (Params.cntRange_pos _)

/-- Below the top of its range the counter increments without a wrap. -/
theorem State.nextCnt_of_lt {s : State} (h : s.cnt + 1 < s.params.cntRange) : s.nextCnt = s.cnt + 1 := Nat.mod_eq_of_lt h

/-! ### The data buffer -/

/-- A sample writes the bit at its position and leaves the byte's other bits (43_edge_sampler.md R165). -/
theorem writeBit_getLsbD (b : Byte) (pos : Fin 8) (v : Level) (k : Fin 8) :
    (writeBit b pos.val v).getLsbD k.val = if k = pos then v else b.getLsbD k.val := by
  have h8 : k.val < 8 := k.isLt
  unfold writeBit
  cases v <;> by_cases h : k = pos
  · subst h; simp [h8]
  · have hne : k.val ≠ pos.val := fun e => h (Fin.ext e)
    by_cases hlt : k.val < pos.val
    · simp [h, h8, hlt]
    · have : k.val - pos.val ≠ 0 := by omega
      simp [h, h8, hlt, this]
  · subst h; simp [h8]
  · have hne : k.val ≠ pos.val := fun e => h (Fin.ext e)
    by_cases hlt : k.val < pos.val
    · simp [h, h8, hlt]
    · have : k.val - pos.val ≠ 0 := by omega
      simp [h, h8, hlt, this]

/-- The sample's write, byte by byte (43_edge_sampler.md R165). -/
theorem State.storeBit_getElem (s : State) (v : Level) (j : Fin 5) :
    (s.storeBit v).data[j.val] =
      if j = s.byteIdx then writeBit s.data[s.byteIdx.val] (7 - s.bitIdx.val) v else s.data[j.val] := by
  rw [State.storeBit_data, Vector.getElem_set]
  by_cases h : j = s.byteIdx
  · simp [h]
  · have : s.byteIdx.val ≠ j.val := fun e => h (Fin.ext e.symm)
    simp [h, this]

/-- The advance to the next bit counts the bits of the buffer in arrival order (20_memory.md R57). -/
theorem State.advanceBit_index (s : State) (h : s.lastBit = false) :
    8 * s.advanceBit.byteIdx.val + s.advanceBit.bitIdx.val = 8 * s.byteIdx.val + s.bitIdx.val + 1 := by
  have h5 := s.byteIdx.isLt
  have h8 := s.bitIdx.isLt
  unfold State.lastBit at h
  unfold State.advanceBit
  split
  · rename_i h7
    have h7' : s.bitIdx.val = 7 := by simpa using h7
    have h4 : s.byteIdx.val ≠ 4 := by
      intro h4
      simp [h4, h7'] at h
    simp only [Fin.val_add, Fin.val_one, Fin.val_zero]
    omega
  · rename_i h7
    have h7' : s.bitIdx.val ≠ 7 := by simpa using h7
    simp only [Fin.val_add, Fin.val_one]
    omega

/-! ### The register window (20_memory.md R51, R52) -/

/-- The offsets that are admitted (20_memory.md R52). -/
theorem admitOffset_admitted {off o : Nat} :
    admitOffset off = .admitted o ↔ o = off ∧ off < 0x40 ∧ off % 4 = 0 := by
  unfold admitOffset Config.windowBytes
  split
  · simp; omega
  · split
    · simp; omega
    · simp only [Admission.admitted.injEq]; omega

/-- The accesses that are admitted (20_memory.md R52). -/
theorem State.admission_admitted {s : State} {addr size off : Nat} :
    s.admission addr size = .admitted off ↔ size = 4 ∧ addr = s.params.base + off ∧ off < 0x40 ∧ off % 4 = 0 := by
  unfold State.admission
  split
  · simp; omega
  · split
    · simp; omega
    · rw [admitOffset_admitted]; omega

/-- HOST's aligned 4-byte access inside the window is admitted. -/
theorem State.admission_window (s : State) {off : Nat} (h : off < 0x40) (h4 : off % 4 = 0) :
    s.admission (s.params.base + off) 4 = .admitted off := State.admission_admitted.2 ⟨rfl, rfl, h, h4⟩

/-- What a register write does to SWSI, by cases (20_memory.md R55). -/
theorem State.writeReg_cases (s : State) (off : Nat) (v : Word) :
    (off = 0 ∧ s.writeReg off v = s.writeCmd v) ∨
    (off = 4 ∧ v.getLsbD 4 = true ∧ s.writeReg off v = s.clearErr) ∨
    (off = 4 ∧ v.getLsbD 4 = false ∧ s.writeReg off v = s) ∨
    (off ≠ 0 ∧ off ≠ 4 ∧ s.writeReg off v = s) := by
  unfold State.writeReg
  split
  · exact .inl ⟨rfl, rfl⟩
  · by_cases h : v.getLsbD 4 = true
    · exact .inr (.inl ⟨rfl, h, if_pos h⟩)
    · exact .inr (.inr (.inl ⟨rfl, Bool.eq_false_iff.2 h, if_neg h⟩))
  · rename_i h0 h4
    exact .inr (.inr (.inr ⟨h0, h4, rfl⟩))

/-- What a CMD write does, by cases (30_encoding.md R81). -/
theorem State.writeCmd_cases (s : State) (w : Word) :
    (s.busy = true ∧ s.writeCmd w = s.cmdError .busy) ∨
    (s.busy = false ∧ (∃ why, decode w = .illegal why) ∧ s.writeCmd w = s.cmdError .illegal) ∨
    (s.busy = false ∧ (∃ i, decode w = .cmd i) ∧ s.writeCmd w = s.accept w) := by
  unfold State.writeCmd
  cases hb : s.busy
  · cases hd : decode w with
    | illegal why => exact .inr (.inl ⟨rfl, ⟨why, rfl⟩, by simp⟩)
    | cmd i => exact .inr (.inr ⟨rfl, ⟨i, rfl⟩, by simp⟩)
  · exact .inl ⟨rfl, by simp⟩

end Sys2Proof.Machine
end

