-- ==== Sys2Proof/Laws/PerInstr.lean ====
section
/-! SUPPORT. One law for every command: its word stands in its own row of spec/30_encoding.md R73. -/

namespace Sys2Proof.Laws.EncodingRow

/-- The word of a command with an encoding matches its row: "`(w & mask) == match`" (30_encoding.md R73). -/
def Statement (i : Instr) : Prop := i.wf = true → encode i &&& i.mnemonic.maskWord = i.mnemonic.matchWord

theorem cfgOut : Statement .cfgOut := by intro _; decide

theorem cfgIn : Statement .cfgIn := by intro _; decide

theorem write (l : Level) : Statement (.write l) := by intro _; cases l <;> decide

theorem sense : Statement .sense := by intro _; decide

theorem timReset : Statement .timReset := by intro _; decide

theorem delay (n : Nat) : Statement (.delay n) := by
  intro _
  apply BitVec.eq_of_getLsbD_eq
  intro k hk
  simp only [encode, Instr.mnemonic, Mnemonic.matchWord, Mnemonic.maskWord, Instr.levelOperand, Instr.countOperand]
  have h : k < 16 ∨ (0x0000FFFF : Word).getLsbD k = false := by
    interval_cases k <;> first | (left; decide) | (right; decide)
  rcases h with h | h
  · have h0 : (BitVec.ofNat 32 n <<< 16).getLsbD k = false := by simp [h]
    have h1 : (BitVec.ofNat 32 false.toNat <<< 4).getLsbD k = false := by simp
    have h2 : (0x0000FFFF : Word).getLsbD k = true := by interval_cases k <;> decide
    simp only [BitVec.getLsbD_and, BitVec.getLsbD_or, h0, h1, h2, Bool.or_false, Bool.and_true]
  · have h2 : (0x00000006 : Word).getLsbD k = false := by
      interval_cases k <;> first | decide | (exfalso; revert h; decide)
    simp only [BitVec.getLsbD_and, h, Bool.and_false]
    exact h2.symm

theorem waitWhile (l : Level) : Statement (.waitWhile l) := by intro _; cases l <;> decide

theorem start : Statement .start := by intro _; decide

theorem capture : Statement .capture := by intro _; decide

theorem read : Statement .read := by intro _; decide

end Sys2Proof.Laws.EncodingRow
end

