-- ==== Sys2Proof/Laws/Step.lean ====
section
/-! SUPPORT. What one step can do, and runs: the step laws every proof about a run goes through. -/

namespace Sys2Proof.Machine

/-! ### The tick -/

/-- Whatever command CUR holds, a tick in a phase other than ISSUE is the arm of the phase: PHASE alone chooses it (40_timer.md R100). -/
theorem runCurrent_arm (s : State) (h : s.phase ≠ .issue) : runCurrent s = .next (sequencerTick id s) := by
  unfold runCurrent
  by_cases h0 : s.phase = .idle
  · simp [h0, sequencerTick]
  · rw [if_neg h0]
    cases hi : s.cur.instr? with
    | none => simp [h]
    | some i =>
      cases i with
      | delay n =>
        have hc := Cur.count_of_delay hi
        simp only [exec, execDelay, delayTick, sequencerTick]
        cases hp : s.phase <;> simp_all
      | waitWhile l =>
        have hl := Cur.level_of_waitWhile hi
        simp only [exec, execWaitWhile, waitWhileTick, sequencerTick]
        cases hp : s.phase <;> simp_all
      | _ =>
        simp only [exec, execCfgOut, execCfgIn, execWrite, execSense, execTimReset, execStart, execCapture, execRead, sequencerTick]
        cases hp : s.phase <;> simp_all

/-- In ISSUE, a tick runs the command CUR holds (40_timer.md R100). -/
theorem runCurrent_issue {s : State} {i : Instr} (h : s.phase = .issue) (hi : s.cur.instr? = some i) :
    runCurrent s = exec i s := by
  simp [runCurrent, h, hi]

/-! ### Runs -/

theorem State.cmdError_withTurns (s : State) (c : ErrCause) (us : List Turn) :
    ({ s with turns := us } : State).cmdError c = { s.cmdError c with turns := us } := by
  cases h : s.err <;> simp [State.cmdError, h]

theorem State.writeCmd_withTurns (s : State) (w : Word) (us : List Turn) :
    ({ s with turns := us } : State).writeCmd w = { s.writeCmd w with turns := us } := by
  by_cases h : s.busy = true
  · have h' : ({ s with turns := us } : State).busy = true := h
    rw [State.writeCmd, if_pos h', State.writeCmd, if_pos h]
    exact State.cmdError_withTurns s _ us
  · have h' : ¬ ({ s with turns := us } : State).busy = true := h
    rw [State.writeCmd, if_neg h', State.writeCmd, if_neg h]
    cases decode w with
    | illegal why => exact State.cmdError_withTurns s _ us
    | cmd i => rfl

theorem State.hostWrite_withTurns (s : State) (off : Nat) (v : Word) (us : List Turn) :
    ({ s with turns := us } : State).hostWrite off v = { s.hostWrite off v with turns := us } := by
  unfold State.hostWrite State.writeReg
  split
  · rw [State.writeCmd_withTurns]
  · cases h : v.getLsbD 4 <;> rfl
  · rfl

theorem sequencerTick_withTurns (d : State) (us : List Turn) :
    sequencerTick id { d with turns := us } = { sequencerTick id d with turns := us } := by
  obtain ⟨d', hd'⟩ : ∃ d' : State, d' = { d with turns := us } := ⟨_, rfl⟩
  have hph : d'.phase = d.phase := by rw [hd']
  have hn : d'.nextCnt = d.nextCnt := by rw [hd']; rfl
  have hl : d'.line = d.line := by rw [hd']; rfl
  have hb : d'.lastBit = d.lastBit := by rw [hd']; rfl
  have hc : d'.cur = d.cur := by rw [hd']
  have hpar : d'.params = d.params := by rw [hd']
  have hi : d'.count.bitIdx = d.count.bitIdx := by rw [hd']; rfl
  rw [← hd']
  simp only [sequencerTick, hph, idleArm, delayWaitArm, levelWaitArm, startLowArm, startHighArm, capWaitLowArm, capDelayArm,
    capWaitHighArm, hn, hl, hb, hc, hpar]
  cases d.phase with
  | idle => subst hd'; rfl
  | issue => subst hd'; rfl
  | delayWait => simp only; split <;> (subst hd'; rfl)
  | levelWait => simp only; split <;> (subst hd'; rfl)
  | startLow => simp only; split <;> (subst hd'; rfl)
  | startHigh =>
    simp only
    split
    · split <;> (subst hd'; rfl)
    · subst hd'; rfl
  | capWaitLow => simp only; split <;> (subst hd'; rfl)
  | capDelay => simp only; split <;> (subst hd'; rfl)
  | capWaitHigh =>
    simp only
    split
    · subst hd'; rfl
    · split
      · subst hd'; rfl
      · simp only [State.advanceBit, hi]
        split <;> (subst hd'; rfl)

/-- In ISSUE the command runs its issue actions (40_timer.md R100). -/
theorem exec_issue (i : Instr) (s : State) (h : s.phase = .issue) :
    exec i s = .next (match i with
      | .cfgOut => issueCfgOut s
      | .cfgIn => issueCfgIn s
      | .write l => issueWrite l s
      | .sense => issueSense s
      | .timReset => issueTimReset s
      | .delay n => issueDelay n s
      | .waitWhile _ => issueWaitWhile s
      | .start => issueStart s
      | .capture => issueCapture s
      | .read => issueRead s) := by
  cases i <;> simp [exec, execCfgOut, execCfgIn, execWrite, execSense, execTimReset, execDelay, execWaitWhile, execStart,
    execCapture, execRead, delayTick, waitWhileTick, sequencerTick, h]

theorem runCurrent_withTurns (d : State) (us : List Turn) :
    nextState? (runCurrent { d with turns := us }) = (nextState? (runCurrent d)).map fun r => { r with turns := us } := by
  by_cases hi : d.phase = .issue
  · cases hc : d.cur.instr? with
    | none => simp [runCurrent, hi, hc, nextState?]
    | some i =>
      rw [runCurrent_issue (s := { d with turns := us }) hi hc, runCurrent_issue hi hc, exec_issue i { d with turns := us } hi,
        exec_issue i d hi]
      cases i with
      | delay n => by_cases hn : n = 0 <;> simp [nextState?, issueDelay, hn, State.complete]
      | _ => rfl
  · rw [runCurrent_arm { d with turns := us } hi, runCurrent_arm d hi]
    exact congrArg some (sequencerTick_withTurns d us)

/-- No step reads or writes the list of the steps after it. -/
theorem takeTurn_withTurns (t : Turn) (s : State) (us : List Turn) :
    nextState? (takeTurn t { s with turns := us }) = (nextState? (takeTurn t s)).map fun r => { r with turns := us } := by
  cases t with
  | access a =>
    cases a with
    | read addr size =>
      have h : ({ s with turns := us } : State).admission addr size = s.admission addr size := rfl
      simp only [takeTurn, hostAccess, h]
      cases s.admission addr size <;> rfl
    | write addr size v =>
      have h : ({ s with turns := us } : State).admission addr size = s.admission addr size := rfl
      simp only [takeTurn, hostAccess, h]
      cases s.admission addr size with
      | refused r => rfl
      | admitted off => simp [nextState?, State.hostWrite_withTurns]
  | program =>
    obtain ⟨s', hs'⟩ : ∃ s' : State, s' = { s with turns := us } := ⟨_, rfl⟩
    have hp : s'.program = s.program := by rw [hs']
    have hr : (s'.hostRead 4).rdata = (s.hostRead 4).rdata := by rw [hs']; rfl
    rw [← hs']
    simp only [takeTurn, programStep, hp]
    cases s.program with
    | nil => subst hs'; rfl
    | cons op rest =>
      cases op with
      | poll =>
        simp only [pollRead, hr]
        split <;> (subst hs'; rfl)
      | read off =>
        simp only
        cases admitOffset off <;> (subst hs'; rfl)
      | write off v =>
        simp only
        cases admitOffset off with
        | refused r => rfl
        | admitted off =>
          subst hs'
          exact congrArg some (State.hostWrite_withTurns { s with program := rest } off v us)
  | reset => rfl
  | tick e => exact runCurrent_withTurns (s.draw e) us

/-- No step reaches for the steps after it. -/
theorem takeTurn_turns {t : Turn} {s r : State} (h : takeTurn t s = .next r) : r.turns = s.turns := by
  have h1 := takeTurn_withTurns t s s.turns
  have h2 : ({ s with turns := s.turns } : State) = s := rfl
  rw [h2, h] at h1
  simp only [nextState?, Option.map, Option.some.injEq] at h1
  exact (congrArg State.turns h1).trans rfl

@[simp] theorem after_nil (s : State) : after [] s = some s := rfl

theorem run_succ_next {s r : State} (k : Nat) (h : step s = .next r) :
    Sys2Proof.core.run (k + 1) s = Sys2Proof.core.run k r := by
  have h' : Sys2Proof.core.step s = .next r := h
  simp [Host.Core.run, h']

theorem run_succ_refused {s : State} {x : Refusal} (k : Nat) (h : step s = .refused x) :
    Sys2Proof.core.run (k + 1) s = .refused x := by
  have h' : Sys2Proof.core.step s = .refused x := h
  simp [Host.Core.run, h']

/-- A run takes its first step and goes on from there. -/
theorem after_cons (t : Turn) (ts : List Turn) (s : State) :
    after (t :: ts) s = (nextState? (takeTurn t s)).bind (after ts) := by
  have h1 := takeTurn_withTurns t s (ts ++ s.turns)
  have hs : step { s with turns := t :: ts ++ s.turns } = takeTurn t { s with turns := ts ++ s.turns } := rfl
  have hr : after (t :: ts) s = nextState? (Sys2Proof.core.run (ts.length + 1) { s with turns := t :: ts ++ s.turns }) := rfl
  rw [hr]
  cases hq' : takeTurn t { s with turns := ts ++ s.turns } with
  | fault x => cases x
  | next r' =>
    rw [run_succ_next _ (hs.trans hq')]
    cases hq : takeTurn t s with
    | fault x => cases x
    | refused x => rw [hq', hq] at h1; simp [nextState?] at h1
    | next r =>
      rw [hq', hq] at h1
      simp only [nextState?, Option.map, Option.some.injEq] at h1
      subst h1
      simp only [nextState?, Option.bind, after, takeTurn_turns hq]
  | refused x =>
    rw [run_succ_refused _ (hs.trans hq')]
    cases hq : takeTurn t s with
    | fault y => cases y
    | next r => rw [hq', hq] at h1; simp [nextState?] at h1
    | refused y => rfl

theorem after_append (ts us : List Turn) (s : State) : after (ts ++ us) s = (after ts s).bind (after us) := by
  induction ts generalizing s with
  | nil => rfl
  | cons t ts ih =>
    rw [List.cons_append, after_cons, after_cons]
    cases nextState? (takeTurn t s) with
    | none => rfl
    | some r => exact ih r

/-- A run of ticks takes its first tick: ENV's draw, then the arm. -/
theorem after_ticks_cons (e : Level) (es : List Level) (s : State) :
    after (ticks (e :: es)) s = (nextState? (runCurrent (s.draw (some e)))).bind (after (ticks es)) := by
  simp only [ticks, List.map_cons, after_cons, takeTurn, tick]

@[simp] theorem after_ticks_nil (s : State) : after (ticks []) s = some s := rfl

theorem ticks_append (es fs : List Level) : ticks (es ++ fs) = ticks es ++ ticks fs := List.map_append

@[simp] theorem ticks_length (es : List Level) : (ticks es).length = es.length := List.length_map _

/-! ### Accesses -/

/-- The step of an admitted write (20_memory.md R52, R55). -/
theorem takeTurn_memWrite (s : State) {off : Nat} (v : Word) (h : off < 0x40) (h4 : off % 4 = 0) :
    takeTurn (memWrite s off v) s = .next (s.hostWrite off v) := by
  simp [takeTurn, memWrite, hostAccess, State.admission_window s h h4]

/-- The step of an admitted read (20_memory.md R52, R54). -/
theorem takeTurn_memRead (s : State) {off : Nat} (h : off < 0x40) (h4 : off % 4 = 0) :
    takeTurn (memRead s off) s = .next (s.hostRead off) := by
  simp [takeTurn, memRead, hostAccess, State.admission_window s h h4]

/-- What a step can be: a tick, an admitted read or write of HOST or of its program, a turn of an ended program, or Reset. -/
theorem takeTurn_cases {t : Turn} {s r : State} (h : takeTurn t s = .next r) :
    (∃ e, t = .tick e ∧ runCurrent (s.draw e) = .next r) ∨
    (∃ off, off < 0x40 ∧ off % 4 = 0 ∧ t = memRead s off ∧ r = s.hostRead off) ∨
    (∃ off v, off < 0x40 ∧ off % 4 = 0 ∧ t = memWrite s off v ∧ r = s.hostWrite off v) ∨
    (t = .program ∧ s.program = [] ∧ r = s) ∨
    (∃ ops, t = .program ∧ s.program = .poll :: ops ∧ r = pollRead ops s) ∨
    (∃ off ops, off < 0x40 ∧ off % 4 = 0 ∧ t = .program ∧ s.program = .read off :: ops ∧ r = readVar ops off s) ∨
    (∃ off v ops, off < 0x40 ∧ off % 4 = 0 ∧ t = .program ∧ s.program = .write off v :: ops ∧
      r = { s with program := ops }.hostWrite off v) ∨
    (t = .reset ∧ r = s.applyReset) := by
  cases t with
  | tick e => exact .inl ⟨e, rfl, h⟩
  | access a =>
    cases a with
    | read addr size =>
      simp only [takeTurn, hostAccess] at h
      cases ha : s.admission addr size with
      | refused x => simp [ha] at h
      | admitted off =>
        rw [ha] at h
        obtain ⟨rfl, rfl, h1, h2⟩ := State.admission_admitted.1 ha
        exact .inr (.inl ⟨off, h1, h2, rfl, by simpa using h.symm⟩)
    | write addr size v =>
      simp only [takeTurn, hostAccess] at h
      cases ha : s.admission addr size with
      | refused x => simp [ha] at h
      | admitted off =>
        rw [ha] at h
        obtain ⟨rfl, rfl, h1, h2⟩ := State.admission_admitted.1 ha
        exact .inr (.inr (.inl ⟨off, v, h1, h2, rfl, by simpa using h.symm⟩))
  | program =>
    simp only [takeTurn, programStep] at h
    cases hp : s.program with
    | nil =>
      rw [hp] at h
      exact .inr (.inr (.inr (.inl ⟨rfl, rfl, by simpa using h.symm⟩)))
    | cons op ops =>
      cases op with
      | poll =>
        rw [hp] at h
        exact .inr (.inr (.inr (.inr (.inl ⟨ops, rfl, rfl, by simpa using h.symm⟩))))
      | read off =>
        rw [hp] at h
        cases ha : admitOffset off with
        | refused x => simp [ha] at h
        | admitted o =>
          obtain ⟨rfl, h1, h2⟩ := admitOffset_admitted.1 ha
          simp only [ha] at h
          exact .inr (.inr (.inr (.inr (.inr (.inl ⟨_, ops, h1, h2, rfl, rfl, by simpa using h.symm⟩)))))
      | write off v =>
        rw [hp] at h
        cases ha : admitOffset off with
        | refused x => simp [ha] at h
        | admitted o =>
          obtain ⟨rfl, h1, h2⟩ := admitOffset_admitted.1 ha
          simp only [ha] at h
          exact .inr (.inr (.inr (.inr (.inr (.inr (.inl ⟨_, v, ops, h1, h2, rfl, rfl, by simpa using h.symm⟩))))))
  | reset => exact .inr (.inr (.inr (.inr (.inr (.inr (.inr ⟨rfl, by simpa [takeTurn] using h.symm⟩))))))

/-- A step is the first of the steps listed, or a tick at a free level where none is. -/
theorem step_eq (s : State) :
    (s.turns = [] ∧ step s = takeTurn (.tick none) s) ∨
    (∃ t rest, s.turns = t :: rest ∧ step s = takeTurn t { s with turns := rest }) := by
  unfold step
  cases h : s.turns with
  | nil => exact .inl ⟨rfl, rfl⟩
  | cons t rest => exact .inr ⟨t, rest, rfl, rfl⟩

/-- Everything a step can do (00_scope.md R10): a tick, an admitted read or write of HOST or of its program, a turn of an ended program,
or Reset. -/
theorem step_cases {s t : State} (h : step s = .next t) :
    (s.ticking ∧ ∃ e us, runCurrent (({ s with turns := us } : State).draw e) = .next t) ∨
    (∃ off us, off < 0x40 ∧ off % 4 = 0 ∧ s.turns = memRead s off :: us ∧ t = ({ s with turns := us } : State).hostRead off) ∨
    (∃ off v us, off < 0x40 ∧ off % 4 = 0 ∧ s.turns = memWrite s off v :: us ∧ t = ({ s with turns := us } : State).hostWrite off v) ∨
    (∃ us, s.turns = .program :: us ∧ s.program = [] ∧ t = { s with turns := us }) ∨
    (∃ us ops, s.turns = .program :: us ∧ s.program = .poll :: ops ∧ t = pollRead ops { s with turns := us }) ∨
    (∃ off us ops, off < 0x40 ∧ off % 4 = 0 ∧ s.turns = .program :: us ∧ s.program = .read off :: ops ∧
      t = readVar ops off { s with turns := us }) ∨
    (∃ off v us ops, off < 0x40 ∧ off % 4 = 0 ∧ s.turns = .program :: us ∧ s.program = .write off v :: ops ∧
      t = ({ s with turns := us, program := ops } : State).hostWrite off v) ∨
    (∃ us, s.turns = .reset :: us ∧ t = ({ s with turns := us } : State).applyReset) := by
  obtain ⟨h0, h1⟩ | ⟨turn, us, h0, h1⟩ := step_eq s <;> rw [h1] at h
  · exact .inl ⟨.inl h0, none, [], by rw [← h0]; exact h⟩
  · obtain ⟨e, rfl, h'⟩ | ⟨off, ho, h4, rfl, rfl⟩ | ⟨off, v, ho, h4, rfl, rfl⟩ | ⟨rfl, hp, rfl⟩ | ⟨ops, rfl, hp, rfl⟩ |
      ⟨off, ops, ho, h4, rfl, hp, rfl⟩ | ⟨off, v, ops, ho, h4, rfl, hp, rfl⟩ | ⟨rfl, rfl⟩ := takeTurn_cases h
    · exact .inl ⟨.inr ⟨e, us, h0⟩, e, us, h'⟩
    · exact .inr (.inl ⟨off, us, ho, h4, h0, rfl⟩)
    · exact .inr (.inr (.inl ⟨off, v, us, ho, h4, h0, rfl⟩))
    · exact .inr (.inr (.inr (.inl ⟨us, h0, hp, rfl⟩)))
    · exact .inr (.inr (.inr (.inr (.inl ⟨us, ops, h0, hp, rfl⟩))))
    · exact .inr (.inr (.inr (.inr (.inr (.inl ⟨off, us, ops, ho, h4, h0, hp, rfl⟩)))))
    · exact .inr (.inr (.inr (.inr (.inr (.inr (.inl ⟨off, v, us, ops, ho, h4, h0, hp, rfl⟩))))))
    · exact .inr (.inr (.inr (.inr (.inr (.inr (.inr ⟨us, h0, rfl⟩))))))

/-! ### Steps of the run law, one by one -/

/-- The command error in one record update (60_exceptions.md R201). -/
theorem State.cmdError_eq (s : State) (c : ErrCause) :
    s.cmdError c = { s with err := true, errCause := if s.err then s.errCause else c } := by
  cases he : s.err
  · rw [State.cmdError_of_not_err _ _ he]; simp
  · rw [State.cmdError_of_err _ _ he]; ext <;> simp [he]

/-- A run of one step. -/
theorem after_one (t : Turn) (s : State) : after [t] s = nextState? (takeTurn t s) := by
  rw [after_cons]; cases nextState? (takeTurn t s) <;> rfl

/-- A run of one admitted write (20_memory.md R55). -/
theorem after_memWrite (s : State) {off : Nat} (v : Word) (h : off < 0x40) (h4 : off % 4 = 0) :
    after [memWrite s off v] s = some (s.hostWrite off v) := by
  rw [after_one, takeTurn_memWrite s v h h4]; rfl

/-- A run of one admitted read (20_memory.md R54). -/
theorem after_memRead (s : State) {off : Nat} (h : off < 0x40) (h4 : off % 4 = 0) :
    after [memRead s off] s = some (s.hostRead off) := by
  rw [after_one, takeTurn_memRead s h h4]; rfl

/-- Acceptance latches the command it decoded (30_encoding.md R81). -/
theorem Cur.instr_of_decode {w : Word} {i : Instr} (h : decode w = .cmd i) : (Cur.ofWord w).instr? = some i := by
  simp only [decode] at h
  split at h
  · simp at h
  · simp only [Cur.ofWord, Cur.instr?, instrOfFields]
    split at h <;> (simp_all [requireZero]; try (split at h <;> simp_all))

/-- Past the issue tick a run of ticks is a run of arms (40_timer.md R100). -/
theorem after_ticks_arm (s : State) (e : Level) (es : List Level) (h : s.phase ≠ .issue) :
    after (ticks (e :: es)) s = after (ticks es) (sequencerTick id (s.draw (some e))) := by
  rw [after_ticks_cons, runCurrent_arm _ (by simpa using h)]; rfl

/-- No arm goes back to ISSUE: only acceptance sets it (30_encoding.md R81). -/
theorem sequencerTick_not_issue (s : State) (h : s.phase ≠ .issue) : (sequencerTick id s).phase ≠ .issue := by
  simp only [sequencerTick, idleArm, delayWaitArm, levelWaitArm, startLowArm, startHighArm, capWaitLowArm, capDelayArm, capWaitHighArm]
  cases hp : s.phase <;> simp
  all_goals first | exact absurd hp h | skip
  all_goals first | (simp [hp]; done) | skip
  all_goals split <;> (try split) <;> simp [hp]

/-- Past the issue tick, ticks never stop: a hang is no stuck state (60_exceptions.md R205). -/
theorem after_ticks_total (s : State) (es : List Level) (h : s.phase ≠ .issue) :
    ∃ t, after (ticks es) s = some t ∧ t.phase ≠ .issue := by
  induction es generalizing s with
  | nil => exact ⟨s, rfl, h⟩
  | cons e es ih =>
    rw [after_ticks_arm s e es h]
    exact ih _ (sequencerTick_not_issue _ (by simpa using h))

end Sys2Proof.Machine
end

