-- ==== Sys2Proof/Tests/Slice0.lean ====
section
/-! SUPPORT. Tests: expected values are those of spec/95_test_vectors.md or of the rule named; and, for every statement with hypotheses, a
concrete state and operands that meet them. -/

namespace Sys2Proof.Tests

open Sys2Proof.Machine

/-! ### Small states -/

/-- The parameters of the vectors (95_test_vectors.md part 2), at a base of 0x40. -/
def params16 : Params := { cntWidth := 16, startLowUs := 18000, base := 0x40 }

/-- The state after Reset, with those parameters. -/
def idle : State := { State.reset with params := params16 }

/-- The command `i` in progress in the phase `ph`. -/
def busyIn (i : Instr) (ph : Phase) : State :=
  { idle with cur := Cur.ofWord (encode i), busy := true, phase := ph }

/-- Whether a step has a next state with the property. -/
def nextHas (o : Host.Outcome State Fault Refusal) (p : State → Bool) : Bool :=
  match nextState? o with
  | some t => p t
  | none => false

/-- Whether a run has a last state with the property. -/
def endsWith (o : Option State) (p : State → Bool) : Bool :=
  match o with
  | some t => p t
  | none => false

theorem params16_legal : params16.Legal where
  width_ge := by decide
  width_le := by decide
  startLow_ge := by decide
  startLow_le := by decide
  base_aligned := by decide

/-! ### WellFormed -/

theorem test_wf_refuses_count_65536 : (Instr.delay 65536).wf = false := by decide

theorem test_wf_admits_count_65535 : (Instr.delay 65535).wf = true := by decide

theorem test_assembler_refuses_count_65536 : assemble ⟨.delay, some 65536⟩ = none := by decide

theorem test_assembler_refuses_level_2 : assemble ⟨.write, some 2⟩ = none := by decide

theorem test_assembler_refuses_missing_operand : assemble ⟨.waitWhile, none⟩ = none := by decide

/-! ### Decoding: words written out from 30_encoding.md R70 and R73, `UUUUUUUUUUUUUUUU00000000000LOOOO` -/

theorem test_decode_cfgOut : decode 0b00000000000000000000000000000001 = .cmd .cfgOut := by decide

theorem test_decode_cfgIn : decode 0b00000000000000000000000000000010 = .cmd .cfgIn := by decide

theorem test_decode_write : decode 0b00000000000000000000000000010011 = .cmd (.write true) := by decide

theorem test_decode_sense : decode 0b00000000000000000000000000000100 = .cmd .sense := by decide

theorem test_decode_timReset : decode 0b00000000000000000000000000000101 = .cmd .timReset := by decide

theorem test_decode_delay : decode 0b01000110010100000000000000000110 = .cmd (.delay 18000) := by decide

theorem test_decode_waitWhile : decode 0b00000000000000000000000000010111 = .cmd (.waitWhile true) := by decide

theorem test_decode_start : decode 0b00000000000000000000000000001000 = .cmd .start := by decide

theorem test_decode_capture : decode 0b00000000000000000000000000001001 = .cmd .capture := by decide

theorem test_decode_read : decode 0b00000000000000000000000000001010 = .cmd .read := by decide

/-- V-E1, V-E17 to V-E27. -/
theorem test_decode_illegal :
    [0x00000000, 0x00000011, 0x00010001, 0x00010003, 0x00000016, 0x00000020, 0x00000021, 0x00008006, 0x0000000B, 0x0000000F,
      0x0000001A, 0x8000000A].all (fun w : Word => (decode w).instr? == none) = true := by decide

theorem test_encode_delay_30 : encode (.delay 30) = 0x001E0006 := by decide

theorem test_table_word : decodeTableWord 32 0x46500006 = some (.delay 18000) := by decide

/-- The host's probe: the first step after reset runs the word. -/
theorem test_fetch_runs : nextHas (step (State.reset.withFetchWord 32 0x00000008)) (fun t => t.phase == .startLow) = true := by decide

/-! ### One step per command -/

/-- V-M1. -/
theorem test_cfgOut_status :
    nextHas (exec .cfgOut { busyIn .cfgOut .issue with env := true }) (fun t => t.statusWord == 0x00004 && !t.lineWith true) = true := by
  decide

/-- V-M2. -/
theorem test_cfgIn_keeps_latch :
    nextHas (exec .cfgIn { busyIn .cfgIn .issue with mode := .output, olat := true })
      (fun t => t.statusWord == 0x00008 && !t.lineWith false) = true := by decide

/-- V-M3. -/
theorem test_write_drives_low :
    nextHas (exec (.write false) { busyIn (.write false) .issue with mode := .output, olat := true })
      (fun t => !t.lineWith true && t.statusWord == 0x00004) = true := by decide

/-- V-M4. -/
theorem test_write_in_input_mode :
    nextHas (exec (.write true) (busyIn (.write true) .issue)) (fun t => !t.lineWith false && t.olat) = true := by decide

/-- V-M5. -/
theorem test_sense_input : nextHas (exec .sense { busyIn .sense .issue with env := true }) (fun t => t.statusWord == 0x00002) = true := by
  decide

/-- P2 step 3. -/
theorem test_sense_output :
    nextHas (exec .sense { busyIn .sense .issue with mode := .output, olat := true }) (fun t => t.statusWord == 0x0000E) = true := by
  decide

/-- V-T2. -/
theorem test_timReset_beats_count :
    nextHas (exec .timReset { busyIn .timReset .issue with cnt := 0xFFFE }) (fun t => t.cnt == 0 && !t.busy) = true := by decide

/-- V-T4. -/
theorem test_delay_zero : nextHas (exec (.delay 0) (busyIn (.delay 0) .issue)) (fun t => t.cnt == 0 && !t.busy) = true := by decide

/-- V-T7: the tick t0 + 65535. -/
theorem test_delay_largest :
    nextHas (exec (.delay 65535) { busyIn (.delay 65535) .delayWait with cnt := 0xFFFE }) (fun t => t.cnt == 0xFFFF && !t.busy) = true := by
  decide

/-- V-S2: the issue tick does not look at the line. -/
theorem test_waitWhile_issue :
    nextHas (exec (.waitWhile false) { busyIn (.waitWhile false) .issue with env := true }) (fun t => t.phase == .levelWait && t.busy) =
      true := by decide

/-- V-S1: tick 10. -/
theorem test_waitWhile_ends :
    nextHas (exec (.waitWhile false) { busyIn (.waitWhile false) .levelWait with env := true }) (fun t => t.phase == .idle && !t.busy) =
      true := by decide

/-- V-G5: tick 99. -/
theorem test_start_low_status :
    nextHas (exec .start { busyIn .start .startLow with cnt := 98, mode := .output })
      (fun t => t.statusWord == 0x00405 && t.cnt == 99) = true := by decide

/-- V-G1: tick 18030. -/
theorem test_start_ends :
    nextHas (exec .start { busyIn .start .startHigh with cnt := 29, mode := .output, olat := true })
      (fun t => t.statusWord == 0x00008 && t.cnt == 30) = true := by decide

/-- V-S11: tick 43. -/
theorem test_capture_samples_one :
    nextHas (exec .capture { busyIn .capture .capDelay with cnt := 39, mode := .output, olat := true })
      (fun t => t.statusWord == 0x0080D && t.data.toList == [0x80, 0, 0, 0, 0]) = true := by decide

/-- V-S12: a 0 sample clears its bit, here the last of DATA[4]. -/
theorem test_capture_samples_zero :
    nextHas (exec .capture { busyIn .capture .capDelay with
        cnt := 39, byteIdx := 4, bitIdx := 7, data := #v[0x01, 0x02, 0x03, 0x04, 0xFF] })
      (fun t => t.data.toList == [0x01, 0x02, 0x03, 0x04, 0xFE]) = true := by decide

/-- P1: tick 21541. -/
theorem test_read_completes :
    nextHas (exec .read { busyIn .read .capWaitHigh with cnt := 69, olat := true, byteIdx := 4, bitIdx := 7 })
      (fun t => t.statusWord == 0x47088 && t.cnt == 70) = true := by decide

/-- V-S13. -/
theorem test_read_hangs_high :
    nextHas (exec .read { busyIn .read .capWaitHigh with olat := true, env := true }) (fun t => t.statusWord == 0x00809) = true := by
  decide

/-! ### The counter, the errors and the window -/

/-- V-T3, both widths. -/
theorem test_counter_wraps :
    nextHas (tick (some false) { idle with cnt := 0xFFFF }) (fun t => t.cnt == 0) = true ∧
      nextHas (tick (some false) { idle with params := { params16 with cntWidth := 32 }, cnt := 0xFFFF }) (fun t => t.cnt == 0x10000) =
        true := by decide

/-- V-X1. -/
theorem test_illegal_word : (idle.writeCmd 0x00000000).statusWord = 0x00030 := by decide

/-- V-X2. -/
theorem test_busy_write : ((idle.writeCmd 0x0000000A).statusWord = 0x00101) ∧
    ((idle.writeCmd 0x0000000A).writeCmd 0x00000002).statusWord = 0x00151 := by decide

/-- V-X5. -/
theorem test_acceptance_keeps_error : ((idle.writeCmd 0x00000000).writeCmd 0x0000000A).statusWord = 0x00131 := by decide

/-- V-X6. -/
theorem test_clear :
    ((idle.writeCmd 0).writeReg 0x04 0xFFFFFFEF).statusWord = 0x00030 ∧ ((idle.writeCmd 0).writeReg 0x04 0xFFFFFFFF).statusWord = 0 := by
  decide

/-- 20_memory.md R52. -/
theorem test_window_edges :
    idle.admission 0x7C 4 = .admitted 0x3C ∧ idle.admission 0x80 4 = .refused .accessWindow ∧ idle.admission 0x3C 4 = .refused .accessWindow ∧
      idle.admission 0x42 4 = .refused .accessAlignment ∧ idle.admission 0x40 2 = .refused .accessSize := by decide

/-- V-R1. -/
theorem test_reset_clears :
    nextHas (takeTurn .reset { busyIn .start .startLow with cnt := 99, mode := .output }) (fun t => t.statusWord == 0 && t.cnt == 0) =
      true := by decide

/-! ### States that meet the invariants -/

/-- CUR of `i` in a phase of it, no timed wait overdue, the pin as the phase needs it. -/
theorem busyIn_inv (i : Instr) (ph : Phase) (cnt : Nat) (mode : Mode) (olat : Level) (j : Fin 5) (b : Fin 8) (hw : i.wf = true) (hm : ph ∈ phasesOf i)
    (hi : ph ≠ .idle) (hc : cnt < 65536) (hd : ph = .delayWait → cnt < (Cur.ofWord (encode i)).count)
    (hl : ph = .startLow → cnt < 18000 ∧ mode = .output ∧ olat = false) (hh : ph = .startHigh → cnt < 30 ∧ mode = .output ∧ olat = true)
    (hs : ph = .capDelay → cnt < 40)
    (hr : ph.inBitLoop = true → (Cur.ofWord (encode i)).isRead = true → mode = .input ∧ olat = true) :
    State.Inv { busyIn i ph with cnt := cnt, mode := mode, olat := olat, byteIdx := j, bitIdx := b } where
  params_legal := params16_legal
  cnt_lt := hc
  busy_iff_idle := ⟨fun h => absurd h Bool.noConfusion, fun h => absurd h hi⟩
  err_iff_cause := ⟨fun _ => rfl, fun _ => rfl⟩
  command := fun _ => ⟨i, hw, rfl, hm⟩
  delay_running := hd
  startLow_running := fun h => (hl h).1
  startHigh_running := fun h => (hh h).1
  sample_running := hs
  startLow_drives := fun h => (hl h).2
  startHigh_drives := fun h => (hh h).2
  read_released := hr
  ok_completed := fun h => absurd h Bool.noConfusion
  read_completed := fun h => absurd h hi

/-- The state after Reset meets the invariant, whatever steps and host program follow. -/
theorem idle_inv (us : List Turn) (ops : List HostOp) : State.Inv { idle with turns := us, program := ops } where
  params_legal := params16_legal
  cnt_lt := by show (0 : Nat) < 2 ^ 16; decide
  busy_iff_idle := ⟨fun _ => rfl, fun _ => rfl⟩
  err_iff_cause := ⟨fun _ => rfl, fun _ => rfl⟩
  command := fun h => absurd rfl h
  delay_running := fun h => nomatch h
  startLow_running := fun h => nomatch h
  startHigh_running := fun h => nomatch h
  sample_running := fun h => nomatch h
  startLow_drives := fun h => nomatch h
  startHigh_drives := fun h => nomatch h
  read_released := fun h => nomatch h
  ok_completed := fun h => nomatch h
  read_completed := fun _ h => absurd (show idle.cur.isRead = true from h) (by decide)

theorem idle_statusInv (us : List Turn) : State.StatusInv { idle with turns := us } where
  busy_iff_idle := ⟨fun _ => rfl, fun _ => rfl⟩
  err_iff_cause := ⟨fun _ => rfl, fun _ => rfl⟩
  byteIdx_le := by show (idle.statusWord.extractLsb' 16 3).toNat ≤ 4; decide
  phase_le := by show (idle.statusWord.extractLsb' 8 4).toNat ≤ 8; decide
  cnt_lt := by show (0 : Nat) < 2 ^ 16; decide

/-! ### Witnesses: encoding and acceptance -/

theorem witness_DecodeOfEncode : (Instr.delay 65535).wf = true ∧ (Instr.delay 0).wf = true := by decide

theorem witness_EncodeOfDecode : decode 0xFFFF0006 = .cmd (.delay 65535) := by decide

theorem witness_RowsSelectCommands :
    (0xFFFF0006 : Word) &&& Mnemonic.delay.maskWord = Mnemonic.delay.matchWord ∧ decode 0xFFFF0006 = .cmd (.delay 65535) := by decide

theorem witness_IllegalWordsRejected :
    idle.busy = false ∧ Mnemonic.all.all (fun m => (0x00000020 : Word) &&& m.maskWord != m.matchWord) = true ∧
      ∀ m : Mnemonic, m ∈ Mnemonic.all := by
  refine ⟨by decide, by decide, fun m => ?_⟩
  cases m <;> decide

theorem witness_AssemblerForms : assemble ⟨.delay, some 65535⟩ = some (.delay 65535) := by decide

/-- One witness for each of the three cases of acceptance. -/
theorem witness_CommandAcceptance :
    (∃ s rest, s.turns = memWrite s 0x00 0x0000000B :: rest ∧ s.busy = true) ∧
    (∃ s rest, s.turns = memWrite s 0x00 0x0000000B :: rest ∧ s.busy = false ∧ ∀ i, decode 0x0000000B ≠ .cmd i) ∧
    (∃ s rest, s.turns = memWrite s 0x00 0x0000000A :: rest ∧ s.busy = false ∧ decode 0x0000000A = .cmd .read) :=
  ⟨⟨{ busyIn .read .issue with turns := [.access (.write 0x40 4 0x0000000B)] }, [], rfl, rfl⟩,
    ⟨{ idle with turns := [.access (.write 0x40 4 0x0000000B)] }, [], rfl, rfl, fun i h => by
      have h0 : decode 0x0000000B = .illegal .opcode := by decide
      rw [h0] at h
      cases h⟩,
    ⟨{ idle with turns := [.access (.write 0x40 4 0x0000000A)] }, [], rfl, rfl, by decide⟩⟩

theorem witness_ErrorPriority :
    (busyIn .read .issue).busy = true ∧ decode 0x0000000F = .illegal .opcode ∧ idle.busy = false := by decide

theorem witness_BusyWritesOnlyReport : (busyIn .read .issue).busy = true ∧ [(0x00000002 : Word), 0x0000000F] ≠ [] := by decide

theorem witness_IllegalWriteStaysIdle :
    idle.busy = false ∧ idle.phase = .idle ∧ (decode 0x00000000).instr? = none ∧ ∀ i, decode 0x00000000 ≠ .cmd i :=
  ⟨by decide, by decide, by decide, fun i h => by
    have h0 : decode 0x00000000 = .illegal .opcode := by decide
    rw [h0] at h
    cases h⟩

/-- A pending error, before an accepted command, a Reset, and the two writes that clear it. -/
theorem witness_OnlyStatusWriteOrResetClears :
    (0x00000010 : Word).getLsbD 4 = true ∧
    [Turn.access (.write 0x40 4 0x0000000A), .reset, .access (.write 0x44 4 0x00000010), .program].all (fun turn =>
      nextHas (step { idle with err := true, errCause := .illegal, turns := [turn], program := [.write 0x04 0x00000010] })
        (fun t => t.err == !(turn == .reset || turn == .access (.write 0x44 4 0x00000010) || turn == .program))) = true := by decide

theorem witness_OnlyCommandWritesRaise :
    nextHas (step { busyIn .read .issue with turns := [.access (.write 0x40 4 0x00000002)] }) (fun t => t.err) = true ∧
      nextHas (step { idle with turns := [.program], program := [.write 0x00 0x00000000] }) (fun t => t.err) = true := by decide

/-! ### Witnesses: the register window -/

theorem witness_OnlyAlignedWordsAdmitted :
    ({ idle with turns := [.access (.write 0x7C 4 0)] } : State).turns = .access (.write (idle.params.base + 0x3C) 4 0) :: [] ∧
      ({ idle with turns := [.access (.read 0x80 4)] } : State).turns = .access (.read (idle.params.base + 0x40) 4) :: [] := by decide

theorem witness_ReadsHaveNoSideEffect : (0x3C < 0x40 ∧ 0x3C % 4 = 0) ∧ (0x00 < 0x40 ∧ 0x00 % 4 = 0) := by decide

theorem witness_WriteSideEffects :
    (0x00 < 0x40 ∧ 0x00 % 4 = 0) ∧ (0x04 < 0x40 ∧ 0x04 % 4 = 0 ∧ (0xFFFFFFFF : Word).getLsbD 4 = true) ∧
      (0xFFFFFFEF : Word).getLsbD 4 = false ∧ (0x08 ≤ 0x08 ∧ 0x08 % 4 = 0) ∧ (0x08 ≤ 0x3C ∧ 0x3C < 0x40 ∧ 0x3C % 4 = 0) := by decide

/-- A state at each code of PHASE and of ERRCAUSE. -/
theorem witness_StatusLayout :
    [Phase.idle, .issue, .delayWait, .levelWait, .startLow, .startHigh, .capWaitLow, .capDelay, .capWaitHigh].map (fun ph =>
      ({ idle with phase := ph } : State).statusWord.extractLsb' 8 4) = [0, 1, 2, 3, 4, 5, 6, 7, 8] ∧
    [ErrCause.noError, .illegal, .busy].map (fun c => ({ idle with errCause := c } : State).statusWord.extractLsb' 5 2) = [0, 1, 2] := by
  decide

/-- The least and the greatest width, with CNT at the top of its range. -/
theorem witness_CounterRegister :
    (∃ s : State, s.params.Legal ∧ s.params.cntWidth = 16 ∧ s.cnt = 2 ^ 16 - 1 ∧ s.cnt < 2 ^ s.params.cntWidth) ∧
      ∃ s : State, s.params.Legal ∧ s.params.cntWidth = 32 ∧ s.cnt = 2 ^ 32 - 1 ∧ s.cnt < 2 ^ s.params.cntWidth :=
  ⟨⟨{ idle with cnt := 65535 }, params16_legal, rfl, rfl, by decide⟩,
    ⟨{ idle with params := { params16 with cntWidth := 32 }, cnt := 4294967295 },
      ⟨by decide, by decide, by decide, by decide, by decide⟩, rfl, rfl, by decide⟩⟩

/-- Each way to be outside the bit loop: no command, and a command in another phase. -/
theorem witness_DataRegisters :
    idle.busy = false ∧ (busyIn .start .startHigh).busy = true ∧ (busyIn .start .startHigh).phase ≠ .capWaitLow ∧
      (busyIn .start .startHigh).phase ≠ .capDelay ∧ (busyIn .start .startHigh).phase ≠ .capWaitHigh := by decide

theorem witness_ZeroReadRegisters : (0x20 ≤ 0x20 ∧ 0x20 ≤ 0x3C ∧ 0x20 % 4 = 0) ∧ (0x20 ≤ 0x3C ∧ 0x3C ≤ 0x3C ∧ 0x3C % 4 = 0) := by
  decide

/-! ### Witnesses: the tick, the counter and the one-tick commands -/

theorem witness_StepRunsCurrentCommand :
    (busyIn (.delay 65535) .delayWait).phase ≠ .idle ∧ (busyIn (.delay 65535) .delayWait).cur.instr? = some (.delay 65535) ∧
      (busyIn (.delay 65535) .delayWait).turns = [] ∧
      ({ busyIn (.delay 65535) .delayWait with turns := [.tick (some true)] } : State).turns = .tick (some true) :: [] := by decide

theorem witness_IdleTickCounts :
    ({ idle with cnt := 65535 } : State).phase = .idle ∧
      ({ idle with cnt := 65535 } : State).cnt < 2 ^ ({ idle with cnt := 65535 } : State).params.cntWidth := by decide

/-- A tick in each zeroing action, one in none, an access, a program access and a Reset. -/
theorem witness_CounterZeroing :
    (({ busyIn .timReset .issue with cnt := 9 } : State).draw (some true)).zeroes ∧
    (({ busyIn .start .startLow with cnt := 17999 } : State).draw (some true)).zeroes ∧
    (({ busyIn .capture .capWaitLow with cnt := 9 } : State).draw (some true)).zeroes ∧
    ¬ (({ busyIn .capture .issue with cnt := 9 } : State).draw (some true)).zeroes ∧
    [Turn.tick (some true), .access (.read 0x48 4), .program, .reset].all (fun turn =>
      nextHas (takeTurn turn { busyIn .capture .issue with cnt := 9 }) (fun _ => true)) = true := by
  refine ⟨.inl ⟨rfl, .inl (by decide)⟩, .inr (.inl ⟨rfl, by decide⟩), .inr (.inr ⟨rfl, rfl⟩), ?_, by decide⟩
  rintro (⟨-, h⟩ | ⟨h, -⟩ | ⟨h, -⟩)
  · revert h; decide
  · cases h
  · cases h

theorem witness_TimResetEffect :
    opField 0x00000015 = opField Mnemonic.timReset.matchWord ∧ (busyIn .timReset .issue).phase = .issue ∧
      (busyIn .timReset .issue).cur.instr? = some .timReset := by decide

theorem witness_DelayEffect :
    (busyIn (.delay 0) .issue).phase = .issue ∧ (busyIn (.delay 0) .issue).cur.instr? = some (.delay 0) ∧
      (busyIn (.delay 65535) .issue).busy = true ∧ (busyIn (.delay 65535) .issue).cur.instr? = some (.delay 65535) ∧
      (busyIn (.delay 65535) .delayWait).phase = .delayWait ∧ [false].length = 0 + 1 := by decide

theorem witness_DelayEffect_legal : (busyIn (.delay 65535) .issue).params.Legal := params16_legal

/-- A timed wait of each of the four phases, from CNT = 0. -/
theorem witness_TimedWaitLaw :
    (busyIn (.delay 65535) .delayWait).timedWait 65535 ∧ (busyIn .start .startLow).timedWait 18000 ∧
      (busyIn .start .startHigh).timedWait 30 ∧ (busyIn .capture .capDelay).timedWait 40 ∧
      (busyIn (.delay 65535) .delayWait).cnt = 0 ∧ (busyIn (.delay 65535) .delayWait).params.Legal ∧
      65535 ≤ 2 ^ (busyIn (.delay 65535) .delayWait).params.cntWidth - 1 :=
  ⟨.inl ⟨rfl, by decide⟩, .inr (.inl ⟨rfl, rfl⟩), .inr (.inr (.inl ⟨rfl, rfl⟩)), .inr (.inr (.inr ⟨rfl, rfl⟩)), rfl, params16_legal,
    by decide⟩

theorem witness_IntervalByCounter :
    idle.phase = .idle ∧ idle.params.Legal ∧ ({ idle with cnt := 65535 } : State).cnt < 2 ^ idle.params.cntWidth ∧
      (List.replicate 65535 true).length < 2 ^ idle.params.cntWidth :=
  ⟨rfl, params16_legal, by decide, by rw [List.length_replicate]; decide⟩

theorem witness_CfgOutEffect :
    opField 0x00010001 = opField Mnemonic.cfgOut.matchWord ∧ (busyIn .cfgOut .issue).phase = .issue := by decide

theorem witness_CfgInEffect :
    opField 0x00000002 = opField Mnemonic.cfgIn.matchWord ∧ (busyIn .cfgIn .issue).phase = .issue := by decide

theorem witness_WriteEffect :
    opField 0x00010003 = opField Mnemonic.write.matchWord ∧ (busyIn (.write true) .issue).phase = .issue ∧
      (busyIn (.write true) .issue).mode = .input ∧ ({ busyIn (.write true) .issue with mode := .output } : State).mode = .output := by
  decide

theorem witness_SenseEffect :
    opField 0x00000004 = opField Mnemonic.sense.matchWord ∧ (busyIn .sense .issue).phase = .issue ∧
      (busyIn .sense .issue).cur.instr? = some .sense := by decide

/-- A step that changes MODE and OLAT, a Reset, and the step that completes READ. -/
theorem witness_PinWriters :
    State.Inv { busyIn .start .issue with cnt := 0, mode := .input, olat := true } ∧
      nextHas (step { busyIn .start .issue with cnt := 0, mode := .input, olat := true }) (fun t => t.mode == .output && !t.olat) = true ∧
      nextHas (step { idle with turns := [.reset] }) (fun _ => true) = true ∧
      State.Inv { busyIn .read .capWaitHigh with cnt := 69, mode := .input, olat := true, byteIdx := 4, bitIdx := 7 } ∧
      nextHas (step { busyIn .read .capWaitHigh with
        cnt := 69, mode := .input, olat := true, byteIdx := 4, bitIdx := 7, turns := [.tick (some false)] }) (fun t => !t.busy) = true :=
  ⟨busyIn_inv .start .issue 0 .input true 0 0 (by decide) (by decide) (by decide) (by decide) (by decide) (by decide) (by decide) (by decide)
    (by decide), by decide, by decide,
    busyIn_inv .read .capWaitHigh 69 .input true 4 7 (by decide) (by decide) (by decide) (by decide) (by decide) (by decide) (by decide)
      (by decide) (by decide), by decide⟩

theorem witness_LineResolution : ({ idle with mode := .output } : State).padOe = true ∧ idle.padOe = false := by decide

/-! ### Witnesses: the start signal -/

theorem witness_StartTicks :
    opField 0x00000008 = opField Mnemonic.start.matchWord ∧ (busyIn .start .issue).phase = .issue ∧
      (busyIn .start .startLow).phase = .startLow ∧ (busyIn .start .startHigh).phase = .startHigh ∧
      (busyIn .start .startHigh).cur.op = 0x8 := by decide

/-- The lengths at which the clauses meet: 0, 1, T_START_LOW_US, and T_START_LOW_US + 1, + 30, + 31 and + 32. -/
theorem witness_StartWaveform :
    (busyIn .start .issue).phase = .issue ∧ (busyIn .start .issue).busy = true ∧ (busyIn .start .issue).params.Legal ∧
      (busyIn .start .issue).cur.instr? = some .start ∧ (busyIn .read .issue).cur.instr? = some .read ∧
      ∀ n ∈ [0, 1, 18000, 18001, 18030, 18031, 18032],
        (List.replicate n false).length = n :=
  ⟨by decide, by decide, params16_legal, by decide, by decide, fun _ _ => List.length_replicate⟩

theorem witness_StateAfterStart :
    (busyIn .start .issue).phase = .issue ∧ (busyIn .start .issue).ok = false ∧ (busyIn .start .issue).params.Legal ∧
      (busyIn .start .issue).cur.instr? = some .start ∧
      (List.replicate 18031 true).length = (busyIn .start .issue).params.startLowUs + 31 :=
  ⟨rfl, rfl, params16_legal, by decide, List.length_replicate⟩

/-! ### Witnesses: the edge sampler -/

theorem witness_WaitWhileEffect :
    opField 0x00010007 = opField Mnemonic.waitWhile.matchWord ∧ (busyIn (.waitWhile true) .issue).phase = .issue ∧
      (busyIn (.waitWhile true) .issue).busy = true ∧ (busyIn (.waitWhile true) .issue).cur.instr? = some (.waitWhile true) ∧
      (∀ e ∈ [true, true], (busyIn (.waitWhile true) .issue).lineWith e = true) ∧
      (busyIn (.waitWhile true) .issue).lineWith false ≠ true ∧ (busyIn (.waitWhile true) .levelWait).phase = .levelWait := by decide

/-- Each phase of the loop, with the counter on each side of the sample point, and the last bit. -/
theorem witness_CaptureTicks :
    opField 0x00000009 = opField Mnemonic.capture.matchWord ∧ (busyIn .capture .issue).phase = .issue ∧
      (busyIn .capture .capWaitLow).phase = .capWaitLow ∧ (busyIn .capture .capDelay).phase = .capDelay ∧
      (busyIn .capture .capWaitHigh).phase = .capWaitHigh ∧ (38 + 1) % 2 ^ 16 < 40 ∧ 40 ≤ (39 + 1) % 2 ^ 16 ∧
      (busyIn .capture .capWaitHigh).line = false ∧ ({ busyIn .capture .capWaitHigh with env := true } : State).line = true ∧
      ({ busyIn .capture .capWaitHigh with byteIdx := 4, bitIdx := 7 } : State).byteIdx.val = 4 ∧
      ({ busyIn .capture .capWaitHigh with byteIdx := 4, bitIdx := 7 } : State).bitIdx.val = 7 ∧
      ¬ ({ busyIn .capture .capWaitHigh with byteIdx := 3, bitIdx := 7 } : State).byteIdx.val = 4 := by decide

theorem witness_ReadTicks :
    opField 0x0000001A = opField Mnemonic.read.matchWord ∧ (busyIn .read .issue).phase = .issue ∧
      (busyIn .read .startHigh).phase = .startHigh ∧ (busyIn .read .startHigh).cur.op = 0xA ∧
      (busyIn .read .startLow).phase = .startLow ∧ (busyIn .read .capWaitLow).phase.inBitLoop = true ∧
      (busyIn .read .capDelay).phase.inBitLoop = true ∧ (busyIn .read .capWaitHigh).phase.inBitLoop = true := by decide

/-- 40 pulses at the threshold: high 40 low 2, and high 41 low 1. -/
def edgePulses : List Pulse := List.replicate 20 ⟨40, 2⟩ ++ List.replicate 20 ⟨41, 1⟩

theorem edgePulses_clean : ∀ p ∈ edgePulses, p.clean := by
  intro p hp
  simp only [edgePulses, List.mem_append, List.mem_replicate] at hp
  rcases hp with ⟨-, rfl⟩ | ⟨-, rfl⟩ <;> exact ⟨by decide, by decide, by decide⟩

theorem witness_CleanWaveformDecodes :
    (busyIn .capture .capWaitLow).params.Legal ∧ (busyIn .capture .capWaitLow).mode = .input ∧ (busyIn .capture .capWaitLow).busy = true ∧
      (busyIn .capture .capWaitLow).phase = .capWaitLow ∧ (busyIn .capture .capWaitLow).byteIdx = 0 ∧
      (busyIn .capture .capWaitLow).bitIdx = 0 ∧ 1 ≤ 1 ∧ edgePulses.length = 40 ∧ (∀ p ∈ edgePulses, p.clean) ∧
      edgePulses[39]? = some ⟨41, 1⟩ ∧ edgePulses[0]? = some ⟨40, 2⟩ ∧ edgePulses.getLast? = some ⟨41, 1⟩ :=
  ⟨params16_legal, rfl, rfl, rfl, rfl, rfl, by decide, by decide, edgePulses_clean, by decide, by decide, by decide⟩

theorem witness_ReadDecodesCleanWaveform :
    (busyIn .read .issue).params.Legal ∧ (busyIn .read .issue).phase = .issue ∧ (busyIn .read .issue).busy = true ∧
      (busyIn .read .issue).cur.instr? = some .read ∧
      (List.replicate 18031 true).length = (busyIn .read .issue).params.startLowUs + 31 ∧ 1 ≤ 1 ∧ edgePulses.length = 40 ∧
      (∀ p ∈ edgePulses, p.clean) ∧ edgePulses[0]? = some ⟨40, 2⟩ ∧ edgePulses.getLast? = some ⟨41, 1⟩ ∧
      0 < (List.replicate 18031 true).length + 1 + loopTicks edgePulses :=
  ⟨params16_legal, rfl, rfl, by decide, List.length_replicate, by decide, by decide, edgePulses_clean, by decide, by decide,
    by rw [List.length_replicate]; decide⟩

theorem witness_CaptureOverwritesData :
    (busyIn .capture .capWaitLow).phase = .capWaitLow ∧ (busyIn .capture .capWaitLow).byteIdx = 0 ∧
      (busyIn .capture .capWaitLow).bitIdx = 0 := by decide

/-- Each unbounded phase, in input and in output mode, with a command error and its clearing among the steps. -/
theorem witness_WaitsAreUnbounded :
    let ts : List Turn := [.tick (some true), .access (.write 0x40 4 0x0000000B), .access (.write 0x44 4 0x00000010)]
    (busyIn .capture .capWaitLow).busy = true ∧ (busyIn .capture .capWaitLow).phase = .capWaitLow ∧
    (busyIn .capture .capWaitHigh).phase = .capWaitHigh ∧ (busyIn (.waitWhile true) .levelWait).phase = .levelWait ∧
    (busyIn (.waitWhile true) .levelWait).cur.l = true ∧
    ({ busyIn .capture .capWaitHigh with mode := .output, olat := true } : State).mode = .output ∧ (busyIn .capture .capWaitHigh).mode = .input ∧
    (∀ turn ∈ ts, turn ≠ .reset) ∧ (∀ turn ∈ ts, turn.hostOrTickAt true = true) ∧
    endsWith (after ts (busyIn .capture .capWaitHigh)) (fun _ => true) = true ∧ [Turn.tick (some true)] = ticks [true] := by decide

theorem witness_CaptureInOutputMode :
    (busyIn .capture .issue).params.Legal ∧ ({ busyIn .capture .issue with mode := .output } : State).mode = .output ∧
      (busyIn .capture .issue).phase = .issue ∧ (busyIn .capture .issue).busy = true ∧
      (busyIn .capture .issue).cur.instr? = some .capture ∧ ({ busyIn .capture .issue with olat := true } : State).olat = true ∧
      (busyIn .capture .issue).olat = false ∧
      ∀ n ∈ [1, 2, 41, 42], (List.replicate n true).length = n :=
  ⟨params16_legal, rfl, rfl, rfl, by decide, rfl, rfl, fun _ _ => List.length_replicate⟩

/-- WAIT_WHILE #0 with a rejected CMD write between two ticks, up to the tick that ends it. -/
theorem witness_HostScheduleInvisible :
    let s := busyIn (.waitWhile false) .levelWait
    let ts : List Turn := [.access (.write 0x40 4 0x0000000A), .tick (some false)]
    s.busy = true ∧ s.phase ≠ .idle ∧ (∀ turn ∈ ts, turn.hostOrGiven = true) ∧
    (∀ n v, after (ticks ((givenLevels ts).take n)) s = some v → v.busy = true ∧ v.phase ≠ .idle) ∧
    endsWith (after (ts ++ [.tick (some true)]) s) (fun t => !t.busy) = true ∧
    endsWith (after (ticks (givenLevels ts ++ [true])) s) (fun t => !t.busy) = true := by
  refine ⟨by decide, by decide, by decide, fun n v h => ?_, by decide, by decide⟩
  have h0 : ∀ es : List Level, es = [] ∨ es = [false] →
      after (ticks es) (busyIn (.waitWhile false) .levelWait) = some v → v.busy = true ∧ v.phase ≠ .idle := by
    rintro es (rfl | rfl) h
    · have : v = busyIn (.waitWhile false) .levelWait := by
        simpa [after, ticks, nextState?, Host.Core.run] using h.symm
      subst this
      decide
    · have : endsWith (some v) (fun t => t.busy && t.phase != .idle) = true := by rw [← h]; decide
      simpa [endsWith] using this
  refine h0 _ ?_ h
  cases n with
  | zero => exact .inl rfl
  | succ n => exact .inr (by simp [givenLevels])

/-- CAPTURE completed: OK = 1 before the next acceptance or Reset. -/
theorem captured_inv (us : List Turn) :
    State.Inv { busyIn .capture .idle with busy := false, ok := true, byteIdx := 4, bitIdx := 7, turns := us } where
  params_legal := params16_legal
  cnt_lt := by show (0 : Nat) < 2 ^ 16; decide
  busy_iff_idle := ⟨fun _ => rfl, fun _ => rfl⟩
  err_iff_cause := ⟨fun _ => rfl, fun _ => rfl⟩
  command := fun h => absurd rfl h
  delay_running := fun h => nomatch h
  startLow_running := fun h => nomatch h
  startHigh_running := fun h => nomatch h
  sample_running := fun h => nomatch h
  startLow_drives := fun h => nomatch h
  startHigh_drives := fun h => nomatch h
  read_released := fun h => nomatch h
  ok_completed := fun _ => ⟨rfl, rfl, .inl rfl⟩
  read_completed := fun _ h => absurd (show (busyIn .capture .idle).cur.isRead = true from h) (by decide)

/-- A sample, a SENSE, a completion, an acceptance, and the acceptance and the Reset that clear OK. -/
theorem witness_FieldWriters :
    (State.Inv { busyIn .capture .capDelay with cnt := 39, mode := .output, olat := true } ∧
      nextHas (step { busyIn .capture .capDelay with cnt := 39, mode := .output, olat := true }) (fun t => t.data != idle.data) = true) ∧
    (State.Inv { busyIn .sense .issue with cnt := 0, mode := .output, olat := true } ∧
      nextHas (step { busyIn .sense .issue with cnt := 0, mode := .output, olat := true }) (fun t => t.level) = true) ∧
    (State.Inv { busyIn .capture .capWaitHigh with cnt := 41, mode := .input, olat := false, byteIdx := 4, bitIdx := 7 } ∧
      nextHas (step { busyIn .capture .capWaitHigh with
        cnt := 41, mode := .input, olat := false, byteIdx := 4, bitIdx := 7, turns := [.tick (some false)] }) (fun t => t.ok) = true) ∧
    (State.Inv { idle with turns := [.access (.write 0x40 4 0x0000000A)], program := [] } ∧
      nextHas (step { idle with turns := [.access (.write 0x40 4 0x0000000A)], program := [] }) (fun t => t.cur != idle.cur) = true) ∧
    (∀ us, State.Inv { busyIn .capture .idle with busy := false, ok := true, byteIdx := 4, bitIdx := 7, turns := us }) ∧
    [Turn.access (.write 0x40 4 0x00000001), .reset].all (fun turn =>
      nextHas (step { busyIn .capture .idle with busy := false, ok := true, byteIdx := 4, bitIdx := 7, turns := [turn] })
        (fun t => !t.ok)) = true :=
  ⟨⟨busyIn_inv .capture .capDelay 39 .output true 0 0 (by decide) (by decide) (by decide) (by decide) (by decide) (by decide) (by decide)
      (by decide) (by decide), by decide⟩,
    ⟨busyIn_inv .sense .issue 0 .output true 0 0 (by decide) (by decide) (by decide) (by decide) (by decide) (by decide) (by decide)
      (by decide) (by decide), by decide⟩,
    ⟨busyIn_inv .capture .capWaitHigh 41 .input false 4 7 (by decide) (by decide) (by decide) (by decide) (by decide) (by decide)
      (by decide) (by decide) (by decide), by decide⟩,
    ⟨idle_inv _ _, by decide⟩, captured_inv, by decide⟩

/-! ### Witnesses: reset, the whole machine, host programs -/

theorem witness_ResetValues :
    ({ busyIn .read .capWaitLow with turns := [.reset] } : State).turns = .reset :: [] ∧ (busyIn .read .capWaitLow).params.Legal :=
  ⟨rfl, params16_legal⟩

theorem witness_ResetEndsHang : (busyIn .read .capWaitLow).params.Legal := params16_legal

theorem witness_StepKeepsStatusInv :
    State.StatusInv { idle with turns := [.access (.write 0x40 4 0x00000000)] } ∧
      nextHas (step { idle with turns := [.access (.write 0x40 4 0x00000000)] }) (fun t => t.err) = true :=
  ⟨idle_statusInv _, by decide⟩

theorem witness_StepKeepsInv :
    State.Inv { busyIn .start .startHigh with cnt := 29, mode := .output, olat := true } ∧
      nextHas (step { busyIn .start .startHigh with cnt := 29, mode := .output, olat := true }) (fun t => !t.busy) = true :=
  ⟨busyIn_inv .start .startHigh 29 .output true 0 0 (by decide) (by decide) (by decide) (by decide) (by decide) (by decide) (by decide)
    (by decide) (by decide), by decide⟩

/-- A state that meets the invariant before a step that has a next state, and before each refused access. -/
theorem witness_OnlyAccessesRefused :
    State.Inv { idle with turns := [.tick (some true)], program := [] } ∧
      State.Inv { idle with turns := [.access (.read 0x40 2)], program := [] } ∧
      step { idle with turns := [.access (.read 0x40 2)] } = .refused .accessSize ∧
      step { idle with turns := [.access (.read 0x80 4)] } = .refused .accessWindow ∧
      step { idle with turns := [.access (.read 0x42 4)] } = .refused .accessAlignment ∧
      State.Inv { idle with turns := [.program], program := [.read 0x40] } ∧
      step { idle with turns := [.program], program := [.read 0x40] } = .refused .accessWindow :=
  ⟨idle_inv _ _, idle_inv _ _, rfl, rfl, rfl, idle_inv _ _, rfl⟩

theorem witness_CommandDurations :
    (busyIn (.delay 1) .issue).params.Legal ∧ (busyIn (.delay 1) .issue).phase = .issue ∧ (busyIn (.delay 1) .issue).busy = true ∧
      (busyIn (.delay 1) .issue).cur.instr? = some (.delay 1) ∧
      endsWith (after (ticks [false]) (busyIn (.delay 1) .issue)) (fun t => t.busy) = true ∧
      endsWith (after (ticks [false, false]) (busyIn (.delay 1) .issue)) (fun t => !t.busy) = true ∧
      [false].length < minTicks params16 (.delay 1) ∧ [false, false].length = minTicks params16 (.delay 1) :=
  ⟨params16_legal, rfl, rfl, by decide, by decide, by decide, by decide, by decide⟩

theorem witness_DataNeverSteers : endsWith (after (ticks [true]) (busyIn .capture .capWaitLow)) (fun _ => true) = true := by decide

theorem witness_HostStatements :
    (Instr.delay 65535).wf = true ∧ ({ idle with program := [.poll] } : State).program = .poll :: [] ∧ idle.busy = false ∧
      (busyIn .read .issue).busy = true ∧ (0x3C < 0x40 ∧ 0x3C % 4 = 0) ∧
      ({ idle with program := [.read 0x3C] } : State).program = .read 0x3C :: [] ∧
      ({ idle with program := [.write 0x3C 0] } : State).program = .write 0x3C 0 :: [] ∧
      ({ idle with program := [.write 0x00 0x0000000A] } : State).program = .write 0x00 0x0000000A :: [] := by decide

theorem witness_DriveSetsLatchFirst :
    idle.busy = false ∧ idle.phase = .idle ∧
      expandProgram ((expandPseudo idle.params (.drive true)).map .cmd) =
        some [.write 0x00 0x00000013, .poll, .write 0x00 0x00000001, .poll] := by decide

end Sys2Proof.Tests
end

section
/-! SUPPORT. Words and their fields: a command and its word determine each other (spec/30_encoding.md R70-R80). -/

namespace Sys2Proof

/-! ### A word and its fields (30_encoding.md R70) -/

/-- The four fields of format C32 make up the whole word. -/
theorem word_ext_fields {w v : Word} (hop : opField w = opField v) (hl : levelField w = levelField v)
    (hrsv : rsvField w = rsvField v) (hus : usField w = usField v) : w = v := by
  apply BitVec.eq_of_getLsbD_eq
  intro k hk
  rcases (by omega : k < 4 ∨ k = 4 ∨ (5 ≤ k ∧ k < 16) ∨ 16 ≤ k) with h | rfl | ⟨h5, h⟩ | h
  · simpa [opField, h] using congrArg (BitVec.getLsbD · k) hop
  · exact hl
  · simpa [rsvField, h5, show k - 5 < 11 by omega] using congrArg (BitVec.getLsbD · (k - 5)) hrsv
  · simpa [usField, h, show k - 16 < 16 by omega] using congrArg (BitVec.getLsbD · (k - 16)) hus

/-! ### The fields of an encoded command (30_encoding.md R73, R77) -/

/-- The `match` column fixes OP and leaves the other fields 0 (30_encoding.md R73). -/
theorem Mnemonic.matchWord_getLsbD (m : Mnemonic) {k : Nat} (hk : 4 ≤ k) : m.matchWord.getLsbD k = false := by
  have hlt : m.matchWord.toNat < 2 ^ k :=
    calc m.matchWord.toNat < 2 ^ 4 := by cases m <;> decide
      _ ≤ 2 ^ k := Nat.pow_le_pow_right (by decide) hk
  exact Nat.testBit_lt_two_pow hlt

/-- An encoded word bit by bit, `match | (l << 4) | (n << 16)` (30_encoding.md R77). -/
theorem encode_getLsbD (i : Instr) {k : Nat} (hk : k < 32) :
    (encode i).getLsbD k =
      if k < 4 then i.mnemonic.matchWord.getLsbD k else if k = 4 then i.levelOperand
      else if k < 16 then false else i.countOperand.testBit (k - 16) := by
  have hbit (l : Level) (j : Nat) : (BitVec.ofNat 32 l.toNat).getLsbD j = (decide (j = 0) && l) := by cases l <;> simp
  simp only [encode, BitVec.getLsbD_or, BitVec.getLsbD_shiftLeft, hbit, BitVec.getLsbD_ofNat, hk]
  rcases (by omega : k < 4 ∨ k = 4 ∨ (4 < k ∧ k < 16) ∨ 16 ≤ k) with h | rfl | ⟨h4, h⟩ | h
  · simp [h, show k < 16 by omega]
  · rw [Mnemonic.matchWord_getLsbD _ le_rfl]; simp
  · simp [Mnemonic.matchWord_getLsbD, h, show ¬ k < 4 by omega, show k ≠ 4 by omega, show k - 4 ≠ 0 by omega, h4.le]
  · simp [Mnemonic.matchWord_getLsbD, show ¬ k < 16 by omega, show ¬ k < 4 by omega, show k ≠ 4 by omega, show k - 4 ≠ 0 by omega,
      show 4 ≤ k by omega, show k - 16 < 32 by omega]

/-! The four fields of an encoded command. -/

theorem opField_encode (i : Instr) : opField (encode i) = opField i.mnemonic.matchWord := by
  apply BitVec.eq_of_getLsbD_eq
  intro k hk
  simp only [opField, BitVec.getLsbD_extractLsb', Nat.zero_add, encode_getLsbD i (show k < 32 by omega), hk, if_true]

theorem levelField_encode (i : Instr) : levelField (encode i) = i.levelOperand :=
  encode_getLsbD i (by decide)

theorem rsvField_encode (i : Instr) : rsvField (encode i) = 0 := by
  apply BitVec.eq_of_getLsbD_eq
  intro k hk
  rw [rsvField, BitVec.getLsbD_extractLsb', encode_getLsbD i (by omega), if_neg (by omega), if_neg (by omega), if_pos (by omega)]
  simp

theorem usField_encode (i : Instr) : usField (encode i) = BitVec.ofNat 16 i.countOperand := by
  apply BitVec.eq_of_getLsbD_eq
  intro k hk
  rw [usField, BitVec.getLsbD_extractLsb', encode_getLsbD i (by omega), if_neg (by omega), if_neg (by omega), if_neg (by omega),
    BitVec.getLsbD_ofNat, Nat.add_sub_cancel_left]

/-! ### The decoder and the encoder -/

theorem requireZero_eq_cmd {zero : Bool} {i j : Instr} : requireZero zero i = .cmd j ↔ zero = true ∧ i = j := by
  cases zero <;> simp [requireZero]

/-- The decoder by fields: OP selects the row, and the operands are what the fields hold (30_encoding.md R73, R80). -/
theorem decode_eq_cmd_iff {w : Word} {i : Instr} :
    decode w = .cmd i ↔ rsvField w = 0 ∧ opField w = opField i.mnemonic.matchWord ∧ levelField w = i.levelOperand ∧
      (usField w).toNat = i.countOperand := by
  constructor
  · intro h
    simp only [decode] at h
    split at h
    · cases h
    · rename_i hrsv
      split at h
      case h_11 => cases h
      all_goals
        rename_i hop
        obtain ⟨hz, rfl⟩ := requireZero_eq_cmd.1 h
        simp_all [Instr.mnemonic, Mnemonic.matchWord, Instr.levelOperand, Instr.countOperand, opField, BitVec.toNat_eq]
  · rintro ⟨hrsv, hop, hl, hus⟩
    cases i <;> simp_all [decode, requireZero, Instr.mnemonic, Mnemonic.matchWord, Instr.levelOperand, Instr.countOperand, opField,
      BitVec.toNat_eq]

theorem Instr.countOperand_lt {i : Instr} (hw : i.wf = true) : i.countOperand < 2 ^ 16 := by
  cases i with
  | delay n => simp only [Instr.wf, decide_eq_true_eq] at hw; simp only [Instr.countOperand]; omega
  | _ => exact Nat.two_pow_pos 16

/-- A command with an encoding decodes from its own word. -/
theorem decode_encode {i : Instr} (hw : i.wf = true) : decode (encode i) = .cmd i :=
  decode_eq_cmd_iff.2 ⟨rsvField_encode i, opField_encode i, levelField_encode i, by
    rw [usField_encode, BitVec.toNat_ofNat, Nat.mod_eq_of_lt (Instr.countOperand_lt hw)]⟩

theorem wf_of_decode {w : Word} {i : Instr} (h : decode w = .cmd i) : i.wf = true := by
  obtain ⟨-, -, -, hus⟩ := decode_eq_cmd_iff.1 h
  have hlt := (usField w).isLt
  cases i with
  | delay n => simp only [Instr.countOperand] at hus; simp only [Instr.wf, decide_eq_true_eq]; omega
  | _ => rfl

/-- A word that decodes to a command is that command's word. -/
theorem encode_of_decode {w : Word} {i : Instr} (h : decode w = .cmd i) : encode i = w := by
  obtain ⟨hrsv, hop, hl, hus⟩ := decode_eq_cmd_iff.1 h
  refine word_ext_fields ((opField_encode i).trans hop.symm) ((levelField_encode i).trans hl.symm)
    ((rsvField_encode i).trans hrsv.symm) ?_
  rw [usField_encode, ← hus, BitVec.ofNat_toNat, BitVec.setWidth_eq]

end Sys2Proof
end

section
/-! SUPPORT. Everything a tick can do, and what each field of the state owes to it (spec/40_timer.md R100). -/

namespace Sys2Proof.Machine

/-! ### The latched command and the timed wait -/

/-- The accepted command is in CUR from its acceptance on (30_encoding.md R81, 40_timer.md R100). -/
theorem Cur.instr_encode {i : Instr} (hw : i.wf = true) : (Cur.ofWord (encode i)).instr? = some i :=
  Cur.instr_of_decode (decode_encode hw)

/-- R142's test of CUR.OP names READ and no other command. -/
theorem Cur.isRead_iff {c : Cur} : c.isRead = true ↔ c.instr? = some .read := by
  simp only [Cur.isRead, Cur.instr?, instrOfFields, beq_iff_eq, BitVec.toNat_eq]
  split <;> simp_all

/-- A phase has at most one timed wait (40_timer.md R107). -/
theorem State.timedWait_unique {s : State} {m n : Nat} (hm : s.timedWait m) (hn : s.timedWait n) : m = n := by
  rcases hm with ⟨hp, rfl⟩ | ⟨hp, rfl⟩ | ⟨hp, rfl⟩ | ⟨hp, rfl⟩ <;> simp [State.timedWait, hp] at hn <;> exact hn.symm

/-! ### Everything a tick can do -/

/-- The effect of one tick: the issue actions of the command in CUR, or one outcome of the arm of PHASE (40_timer.md R100), each with the
test that selects it. -/
inductive TickEffect (s : State) : State → Prop
  | cfgOut : s.phase = .issue → s.cur.instr? = some .cfgOut → TickEffect s ({ s.count with mode := .output } : State).complete
  | cfgIn : s.phase = .issue → s.cur.instr? = some .cfgIn → TickEffect s ({ s.count with mode := .input } : State).complete
  | write (l : Level) : s.phase = .issue → s.cur.instr? = some (.write l) →
      TickEffect s ({ s.count with olat := l } : State).complete
  | sense : s.phase = .issue → s.cur.instr? = some .sense → TickEffect s ({ s.count with level := s.line } : State).complete
  | timReset : s.phase = .issue → s.cur.instr? = some .timReset → TickEffect s ({ s with cnt := 0 } : State).complete
  | delayZero : s.phase = .issue → s.cur.instr? = some (.delay 0) → TickEffect s ({ s with cnt := 0 } : State).complete
  | delayBegins (n : Nat) : s.phase = .issue → s.cur.instr? = some (.delay n) → 0 < n →
      TickEffect s { s with cnt := 0, phase := .delayWait }
  | waitBegins (l : Level) : s.phase = .issue → s.cur.instr? = some (.waitWhile l) →
      TickEffect s { s.count with phase := .levelWait }
  | startBegins : s.phase = .issue → (s.cur.instr? = some .start ∨ s.cur.instr? = some .read) → TickEffect s s.beginStart
  | captureBegins : s.phase = .issue → s.cur.instr? = some .capture → TickEffect s s.count.beginCapture
  | idles : s.phase = .idle → TickEffect s s.count
  | waits (n : Nat) : s.timedWait n → s.nextCnt < n → TickEffect s s.count
  | watches : (s.phase = .levelWait ∧ s.line = s.cur.l) ∨ (s.phase = .capWaitLow ∧ s.line = false) ∨
      (s.phase = .capWaitHigh ∧ s.line = true) → TickEffect s s.count
  | delayEnds : s.phase = .delayWait → s.cur.count ≤ s.nextCnt → TickEffect s s.count.complete
  | waitEnds : s.phase = .levelWait → s.line ≠ s.cur.l → TickEffect s s.count.complete
  | pinRises : s.phase = .startLow → s.params.startLowUs ≤ s.nextCnt →
      TickEffect s { s with olat := true, cnt := 0, phase := .startHigh }
  | startEnds : s.phase = .startHigh → Config.startHighUs ≤ s.nextCnt → s.cur.isRead = false →
      TickEffect s ({ s.count with mode := .input } : State).complete
  | readReleases : s.phase = .startHigh → Config.startHighUs ≤ s.nextCnt → s.cur.isRead = true →
      TickEffect s ({ s.count with mode := .input } : State).beginCapture
  | lineRises : s.phase = .capWaitLow → s.line = true → TickEffect s { s with cnt := 0, phase := .capDelay }
  | samples : s.phase = .capDelay → Config.sampleUs ≤ s.nextCnt →
      TickEffect s { s.count.storeBit s.line with phase := .capWaitHigh }
  | bitEnds : s.phase = .capWaitHigh → s.line = false → s.lastBit = false → TickEffect s s.count.advanceBit
  | captureEnds : s.phase = .capWaitHigh → s.line = false → s.lastBit = true → TickEffect s s.count.completeOk

/-- In ISSUE a tick has the effect of the issue actions. -/
theorem exec_issue_effect {s t : State} {i : Instr} (hp : s.phase = .issue) (hi : s.cur.instr? = some i)
    (h : exec i s = .next t) : TickEffect s t := by
  rw [exec_issue i s hp, Host.Outcome.next.injEq] at h
  subst h
  cases i with
  | cfgOut => exact .cfgOut hp hi
  | cfgIn => exact .cfgIn hp hi
  | write l => exact .write l hp hi
  | sense => exact .sense hp hi
  | timReset => exact .timReset hp hi
  | delay n =>
    by_cases hn : n = 0
    · subst hn; exact .delayZero hp hi
    · simp only [issueDelay, if_neg hn]
      exact .delayBegins n hp hi (Nat.pos_of_ne_zero hn)
  | waitWhile l => exact .waitBegins l hp hi
  | start => exact .startBegins hp (.inl hi)
  | capture => exact .captureBegins hp hi
  | read => exact .startBegins hp (.inr hi)

/-- In any other phase a tick has the effect of the arm of the phase. -/
theorem sequencerTick_effect (s : State) (h : s.phase ≠ .issue) : TickEffect s (sequencerTick id s) := by
  simp only [sequencerTick, delayWaitArm, levelWaitArm, startLowArm, startHighArm, capWaitLowArm, capDelayArm, capWaitHighArm]
  cases hp : s.phase with
  | idle => exact .idles hp
  | issue => exact absurd hp h
  | delayWait =>
    simp only
    split
    · exact .delayEnds hp ‹_›
    · exact .waits _ (.inl ⟨hp, rfl⟩) (Nat.lt_of_not_le ‹_›)
  | levelWait =>
    simp only
    split
    · exact .waitEnds hp ‹_›
    · exact .watches (.inl ⟨hp, Decidable.of_not_not ‹_›⟩)
  | startLow =>
    simp only
    split
    · exact .pinRises hp ‹_›
    · exact .waits _ (.inr (.inl ⟨hp, rfl⟩)) (Nat.lt_of_not_le ‹_›)
  | startHigh =>
    simp only
    split
    · split
      · exact .readReleases hp ‹_› ‹_›
      · exact .startEnds hp ‹_› (Bool.eq_false_iff.2 ‹_›)
    · exact .waits _ (.inr (.inr (.inl ⟨hp, rfl⟩))) (Nat.lt_of_not_le ‹_›)
  | capWaitLow =>
    simp only
    split
    · exact .lineRises hp ‹_›
    · exact .watches (.inr (.inl ⟨hp, Bool.eq_false_iff.2 ‹_›⟩))
  | capDelay =>
    simp only
    split
    · exact .samples hp ‹_›
    · exact .waits _ (.inr (.inr (.inr ⟨hp, rfl⟩))) (Nat.lt_of_not_le ‹_›)
  | capWaitHigh =>
    simp only
    split
    · exact .watches (.inr (.inr ⟨hp, ‹_›⟩))
    · rename_i hline
      split
      · exact .captureEnds hp (Bool.eq_false_iff.2 hline) ‹_›
      · exact .bitEnds hp (Bool.eq_false_iff.2 hline) (Bool.eq_false_iff.2 ‹_›)

/-- Everything a tick can do (40_timer.md R100). -/
theorem runCurrent_effect {s t : State} (h : runCurrent s = .next t) : TickEffect s t := by
  by_cases hp : s.phase = .issue
  · cases hi : s.cur.instr? with
    | none => simp [runCurrent, hp, hi] at h
    | some i => exact exec_issue_effect hp hi (runCurrent_issue hp hi ▸ h)
  · rw [runCurrent_arm s hp, Host.Outcome.next.injEq] at h
    exact h ▸ sequencerTick_effect s hp

namespace TickEffect

/-! ### What every tick leaves, and what it can write -/

section
variable {s t : State} (h : TickEffect s t)
include h

theorem cur_eq : t.cur = s.cur := by
  cases h <;> simp

theorem params_eq : t.params = s.params := by
  cases h <;> simp

theorem err_eq : t.err = s.err := by
  cases h <;> simp

theorem errCause_eq : t.errCause = s.errCause := by
  cases h <;> simp

/-- A tick zeroes the counter or counts (40_timer.md R101). -/
theorem cnt_cases : t.cnt = 0 ∨ t.cnt = s.nextCnt := by
  cases h <;> simp

/-- A tick keeps BUSY and does not change whether SEQ is idle, or it completes the command (40_timer.md R102). -/
theorem busy_cases : (t.busy = s.busy ∧ (t.phase = .idle ↔ s.phase = .idle)) ∨ (t.busy = false ∧ t.phase = .idle) := by
  cases h <;> simp [*]

/-- After a tick the counter is in its range (40_timer.md R101). -/
theorem cnt_lt : t.cnt < t.params.cntRange := by
  rw [h.params_eq]
  obtain hc | hc := h.cnt_cases <;> rw [hc]
  · exact Params.cntRange_pos _
  · exact s.nextCnt_lt

/-- A tick keeps BUSY = 0 exactly in IDLE (10_state.md R39). -/
theorem busy_iff_idle (hs : s.busy = false ↔ s.phase = .idle) : t.busy = false ↔ t.phase = .idle := by
  obtain ⟨hb, hp⟩ | ⟨hb, hp⟩ := h.busy_cases
  · rw [hb, hp, hs]
  · simp [hb, hp]

/-- In IDLE a tick counts and does nothing else (40_timer.md R100). -/
theorem eq_count_of_idle (hp : s.phase = .idle) : t = s.count := by
  cases h <;> simp_all [State.timedWait]

/-- Only the sample writes DATA (43_edge_sampler.md R165). -/
theorem data_cases : t.data = s.data ∨ s.phase = .capDelay := by
  cases h <;> simp [*]

/-- Only SENSE writes LEVEL (41_pin_mux.md R126). -/
theorem level_cases : t.level = s.level ∨ (s.phase = .issue ∧ s.cur.instr? = some .sense) := by
  cases h <;> simp [*]

/-- Only the end of the 40th bit writes OK (43_edge_sampler.md R166, R168). -/
theorem ok_cases : t.ok = s.ok ∨ (s.phase = .capWaitHigh ∧ s.lastBit = true ∧ t = s.count.completeOk) := by
  cases h <;> simp [*]

end
end TickEffect
end Sys2Proof.Machine
end

section
/-! SUPPORT. Everything a step can do to the state of SWSI, whatever HOST's side of the run does (spec/00_scope.md R10, spec/10_state.md R20). -/

namespace Sys2Proof.Machine

/-! ### States of the same block (10_state.md R20) -/

namespace State.sameBlock

theorem refl (s : State) : s.sameBlock s := by
  simp [State.sameBlock, State.sameSeq]

section
variable {s t : State} (h : s.sameBlock t)
include h

theorem data_eq : s.data = t.data := by
  obtain ⟨⟨-, -, -, hdata, -⟩, -⟩ := h
  exact hdata

theorem busy_eq : s.busy = t.busy := by
  obtain ⟨⟨-, -, -, -, hbusy, -⟩, -⟩ := h
  exact hbusy

theorem level_eq : s.level = t.level := by
  obtain ⟨⟨-, -, -, -, -, hlevel, -⟩, -⟩ := h
  exact hlevel

theorem ok_eq : s.ok = t.ok := by
  obtain ⟨⟨-, -, -, -, -, -, hok, -⟩, -⟩ := h
  exact hok

theorem phase_eq : s.phase = t.phase := by
  obtain ⟨⟨-, -, -, -, -, -, -, hphase, -⟩, -⟩ := h
  exact hphase

theorem lastBit_eq : s.lastBit = t.lastBit := by
  obtain ⟨⟨-, -, -, -, -, -, -, -, hbit, hbyte, -⟩, -⟩ := h
  rw [State.lastBit, hbit, hbyte, State.lastBit]

theorem cur_eq : s.cur = t.cur := by
  obtain ⟨⟨-, -, -, -, -, -, -, -, -, -, hcur, -⟩, -⟩ := h
  exact hcur

end

theorem trans {s t u : State} (h : s.sameBlock t) (h' : t.sameBlock u) : s.sameBlock u := by
  simp_all [State.sameBlock, State.sameSeq]

theorem cmdError {s t : State} (h : s.sameBlock t) (c : ErrCause) : (s.cmdError c).sameBlock (t.cmdError c) := by
  simp_all [State.sameBlock, State.sameSeq]

theorem clearErr {s t : State} (h : s.sameBlock t) : s.clearErr.sameBlock t.clearErr := by
  simp_all [State.sameBlock, State.sameSeq]

theorem accept {s t : State} (h : s.sameBlock t) (w : Word) : (s.accept w).sameBlock (t.accept w) := by
  simp_all [State.sameBlock, State.sameSeq]

theorem pollRead (rest : List HostOp) (s : State) : (pollRead rest s).sameBlock s := by
  unfold Machine.pollRead
  dsimp only
  split
  · exact refl s
  · exact refl s

end State.sameBlock

/-! ### The command error -/

/-- A command error keeps ERR = 0 exactly where ERRCAUSE = 0 (10_state.md R39, 60_exceptions.md R201). -/
theorem State.cmdError_err_iff_cause {s : State} (h : s.err = false ↔ s.errCause = .noError) {c : ErrCause} (hc : c ≠ .noError) :
    (s.cmdError c).err = false ↔ (s.cmdError c).errCause = .noError := by
  cases he : s.err <;> simp_all

/-! ### Everything a step can do to the block -/

/-- The effect of one step on the block of 10_state.md R20: a tick, Reset, nothing, or one of the effects of a register write
(20_memory.md R55): an error cleared, an error raised, or an acceptance. -/
inductive StepEffect (s t : State) : Prop
  | tick (d : State) : s.ticking → d.sameBlock s → TickEffect d t → StepEffect s t
  | reset : (∃ rest, s.turns = .reset :: rest) → t.sameBlock s.applyReset → StepEffect s t
  | none : t.sameBlock s → StepEffect s t
  | clears (v : Word) : s.writing 0x04 v → v.getLsbD 4 = true → t.sameBlock s.clearErr → StepEffect s t
  | raisesBusy (w : Word) : s.writing 0x00 w → s.busy = true → t.sameBlock (s.cmdError .busy) → StepEffect s t
  | raisesIllegal (w : Word) (why : Illegal) : s.writing 0x00 w → s.busy = false → decode w = .illegal why →
      t.sameBlock (s.cmdError .illegal) → StepEffect s t
  | accepts (w : Word) (i : Instr) : s.writing 0x00 w → s.busy = false → decode w = .cmd i → t.sameBlock (s.accept w) →
      StepEffect s t

/-- A register write of HOST or of its program, by cases of the offset and the word (20_memory.md R55, 30_encoding.md R81). -/
theorem hostWrite_effect {s d : State} {off : Nat} {v : Word} (hd : d.sameBlock s) (hw : s.writing off v) :
    StepEffect s (d.hostWrite off v) := by
  have ht : (d.hostWrite off v).sameBlock (d.writeReg off v) := .refl _
  obtain ⟨rfl, h⟩ | ⟨rfl, hv, h⟩ | ⟨-, -, h⟩ | ⟨-, -, h⟩ := d.writeReg_cases off v <;> rw [h] at ht
  · obtain ⟨hb, h⟩ | ⟨hb, ⟨why, hwhy⟩, h⟩ | ⟨hb, ⟨i, hi⟩, h⟩ := d.writeCmd_cases v <;> rw [h] at ht <;> rw [hd.busy_eq] at hb
    · exact .raisesBusy v hw hb (ht.trans (hd.cmdError .busy))
    · exact .raisesIllegal v why hw hb hwhy (ht.trans (hd.cmdError .illegal))
    · exact .accepts v i hw hb hi (ht.trans (hd.accept v))
  · exact .clears v hw hv (ht.trans hd.clearErr)
  · exact .none (ht.trans hd)
  · exact .none (ht.trans hd)

/-- Everything a step can do to the block. -/
theorem step_effect {s t : State} (h : step s = .next t) : StepEffect s t := by
  obtain ⟨ht, e, us, h⟩ | ⟨off, us, -, -, -, rfl⟩ | ⟨off, v, us, -, -, hu, rfl⟩ | ⟨us, -, -, rfl⟩ | ⟨us, ops, -, -, rfl⟩ |
    ⟨off, us, ops, -, -, -, -, rfl⟩ | ⟨off, v, us, ops, -, -, hu, hp, rfl⟩ | ⟨us, hu, rfl⟩ := step_cases h
  · exact .tick (({ s with turns := us } : State).draw e) ht (.refl s) (runCurrent_effect h)
  · exact .none (.refl s)
  · exact hostWrite_effect (.refl s) (.inl ⟨us, hu⟩)
  · exact .none (.refl s)
  · exact .none (.pollRead ops { s with turns := us })
  · exact .none (.refl s)
  · exact hostWrite_effect (.refl s) (.inr ⟨us, ops, hu, hp⟩)
  · exact .reset ⟨us, hu⟩ (.refl s.applyReset)

namespace StepEffect
section
variable {s t : State} (h : StepEffect s t)
include h

/-- DATA is written by a sample or by Reset (10_state.md R25). -/
theorem data_cases : t.data = s.data ∨ (∃ rest, s.turns = .reset :: rest) ∨ (s.ticking ∧ s.phase = .capDelay) := by
  cases h with
  | tick d htick hd ht =>
    obtain hdata | hp := ht.data_cases
    · exact .inl (hdata.trans hd.data_eq)
    · exact .inr (.inr ⟨htick, hd.phase_eq ▸ hp⟩)
  | reset hr => exact .inr (.inl hr)
  | none ht => exact .inl ht.data_eq
  | clears _ _ _ ht => exact .inl ht.data_eq
  | raisesBusy _ _ _ ht => exact .inl (ht.data_eq.trans (s.cmdError_data _))
  | raisesIllegal _ _ _ _ _ ht => exact .inl (ht.data_eq.trans (s.cmdError_data _))
  | accepts _ _ _ _ _ ht => exact .inl ht.data_eq

/-- LEVEL is written by SENSE or by Reset (10_state.md R28). -/
theorem level_cases :
    t.level = s.level ∨ (∃ rest, s.turns = .reset :: rest) ∨
      (s.ticking ∧ s.phase = .issue ∧ s.cur.instr? = some .sense) := by
  cases h with
  | tick d htick hd ht =>
    obtain hlevel | ⟨hp, hi⟩ := ht.level_cases
    · exact .inl (hlevel.trans hd.level_eq)
    · exact .inr (.inr ⟨htick, hd.phase_eq ▸ hp, hd.cur_eq ▸ hi⟩)
  | reset hr => exact .inr (.inl hr)
  | none ht => exact .inl ht.level_eq
  | clears _ _ _ ht => exact .inl ht.level_eq
  | raisesBusy _ _ _ ht => exact .inl (ht.level_eq.trans (s.cmdError_level _))
  | raisesIllegal _ _ _ _ _ ht => exact .inl (ht.level_eq.trans (s.cmdError_level _))
  | accepts _ _ _ _ _ ht => exact .inl ht.level_eq

/-- OK is set by the end of the 40th bit and cleared by acceptance or Reset (10_state.md R30). -/
theorem ok_cases :
    t.ok = s.ok ∨
    (s.ticking ∧ s.phase = .capWaitHigh ∧ s.lastBit = true ∧ t.ok = true ∧ t.busy = false) ∨
    ((∃ rest, s.turns = .reset :: rest) ∧ t.ok = false) ∨
    (∃ w i, s.writing 0x00 w ∧ s.busy = false ∧ decode w = .cmd i ∧ t.sameBlock (s.accept w)) := by
  cases h with
  | tick d htick hd ht =>
    obtain hok | ⟨hp, hlast, rfl⟩ := ht.ok_cases
    · exact .inl (hok.trans hd.ok_eq)
    · exact .inr (.inl ⟨htick, hd.phase_eq ▸ hp, hd.lastBit_eq ▸ hlast, rfl, rfl⟩)
  | reset hr ht => exact .inr (.inr (.inl ⟨hr, ht.ok_eq⟩))
  | none ht => exact .inl ht.ok_eq
  | clears _ _ _ ht => exact .inl ht.ok_eq
  | raisesBusy _ _ _ ht => exact .inl (ht.ok_eq.trans (s.cmdError_ok _))
  | raisesIllegal _ _ _ _ _ ht => exact .inl (ht.ok_eq.trans (s.cmdError_ok _))
  | accepts w i hw hb hi ht => exact .inr (.inr (.inr ⟨w, i, hw, hb, hi, ht⟩))

/-- CUR is written by acceptance or by Reset (10_state.md R33). -/
theorem cur_cases :
    t.cur = s.cur ∨ (∃ rest, s.turns = .reset :: rest) ∨
    (∃ w i, s.writing 0x00 w ∧ s.busy = false ∧ decode w = .cmd i ∧ t.sameBlock (s.accept w)) := by
  cases h with
  | tick d _ hd ht => exact .inl (ht.cur_eq.trans hd.cur_eq)
  | reset hr => exact .inr (.inl hr)
  | none ht => exact .inl ht.cur_eq
  | clears _ _ _ ht => exact .inl ht.cur_eq
  | raisesBusy _ _ _ ht => exact .inl (ht.cur_eq.trans (s.cmdError_cur _))
  | raisesIllegal _ _ _ _ _ ht => exact .inl (ht.cur_eq.trans (s.cmdError_cur _))
  | accepts w i hw hb hi ht => exact .inr (.inr ⟨w, i, hw, hb, hi, ht⟩)

end
end StepEffect

end Sys2Proof.Machine
end

section
/-! SUPPORT. The machine's invariant, kept by every step (spec/10_state.md R39, and what the arms keep). -/

namespace Sys2Proof.Machine

/-! ### The invariant outside ticks -/

namespace State.Inv

/-- The invariant speaks of the block and the parameters alone. -/
theorem of_sameBlock {s t : State} (h : s.Inv) (hst : t.sameBlock s) : t.Inv := by
  obtain ⟨⟨hmode, holat, hcnt, hdata, hbusy, hlevel, hok, hphase, hbit, hbyte, hcur, hpar⟩, herr, hcause⟩ := hst
  cases s
  cases t
  dsimp only at *
  subst_vars
  exact { h with }

/-- The command in progress: a legal one, with PHASE one of its phases. -/
theorem current {s : State} (h : s.Inv) (hp : s.phase ≠ .idle) :
    ∃ i, i.wf = true ∧ s.cur.instr? = some i ∧ s.phase ∈ phasesOf i := by
  obtain ⟨i, hw, hcur, hmem⟩ := h.command hp
  exact ⟨i, hw, hcur ▸ Cur.instr_encode hw, hmem⟩

/-- OK = 0 while a command is in progress. -/
theorem not_ok {s : State} (h : s.Inv) (hp : s.phase ≠ .idle) : s.ok = false :=
  Bool.eq_false_iff.2 fun hok => hp (h.ok_completed hok).1

theorem applyReset {s : State} (h : s.params.Legal) : s.applyReset.Inv where
  params_legal := h
  cnt_lt := Params.cntRange_pos _
  busy_iff_idle := by simp
  err_iff_cause := by simp
  command := by simp
  delay_running := by simp
  startLow_running := by simp
  startHigh_running := by simp
  sample_running := by simp
  startLow_drives := by simp
  startHigh_drives := by simp
  read_released := by simp [Phase.inBitLoop]
  ok_completed := by simp
  read_completed := by simp [Cur.isRead]

theorem clearErr {s : State} (h : s.Inv) : s.clearErr.Inv :=
  { h with err_iff_cause := by simp }

theorem cmdError {s : State} (h : s.Inv) {c : ErrCause} (hc : c ≠ .noError) : (s.cmdError c).Inv := by
  have hcause := State.cmdError_err_iff_cause h.err_iff_cause hc
  rw [State.cmdError_eq] at hcause ⊢
  exact { h with err_iff_cause := hcause }

theorem accept {s : State} (h : s.Inv) {w : Word} {i : Instr} (hd : decode w = .cmd i) : (s.accept w).Inv where
  params_legal := h.params_legal
  cnt_lt := h.cnt_lt
  busy_iff_idle := by simp
  err_iff_cause := h.err_iff_cause
  command := fun _ => ⟨i, wf_of_decode hd, by simp [encode_of_decode hd], by cases i <;> simp [phasesOf]⟩
  delay_running := by simp
  startLow_running := by simp
  startHigh_running := by simp
  sample_running := by simp
  startLow_drives := by simp
  startHigh_drives := by simp
  read_released := by simp [Phase.inBitLoop]
  ok_completed := by simp
  read_completed := by simp

end State.Inv

/-! ### Which command a phase belongs to (10_state.md R31) -/

section
variable {i : Instr}

theorem issue_mem_phasesOf : .issue ∈ phasesOf i := by
  cases i <;> simp [phasesOf]

@[simp] theorem delayWait_mem_phasesOf : .delayWait ∈ phasesOf i ↔ ∃ n, i = .delay n := by
  cases i <;> simp [phasesOf]

@[simp] theorem levelWait_mem_phasesOf : .levelWait ∈ phasesOf i ↔ ∃ l, i = .waitWhile l := by
  cases i <;> simp [phasesOf]

@[simp] theorem startLow_mem_phasesOf : .startLow ∈ phasesOf i ↔ i = .start ∨ i = .read := by
  cases i <;> simp [phasesOf]

@[simp] theorem startHigh_mem_phasesOf : .startHigh ∈ phasesOf i ↔ i = .start ∨ i = .read := by
  cases i <;> simp [phasesOf]

@[simp] theorem capWaitLow_mem_phasesOf : .capWaitLow ∈ phasesOf i ↔ i = .capture ∨ i = .read := by
  cases i <;> simp [phasesOf]

@[simp] theorem capDelay_mem_phasesOf : .capDelay ∈ phasesOf i ↔ i = .capture ∨ i = .read := by
  cases i <;> simp [phasesOf]

@[simp] theorem capWaitHigh_mem_phasesOf : .capWaitHigh ∈ phasesOf i ↔ i = .capture ∨ i = .read := by
  cases i <;> simp [phasesOf]

end

/-- READ in CUR is no other command. -/
theorem Cur.not_isRead {c : Cur} {i : Instr} (hi : c.instr? = some i) (hne : i ≠ .read) : c.isRead = false := by
  refine Bool.eq_false_iff.2 fun hr => hne ?_
  rw [Cur.isRead_iff, hi] at hr
  exact Option.some.inj hr

/-- The bit loop is CAPTURE's or READ's. -/
theorem State.Inv.capture_or_read {s : State} (h : s.Inv) (hp : s.phase.inBitLoop = true) :
    s.cur.instr? = some .capture ∨ s.cur.instr? = some .read := by
  have h0 : s.phase ≠ .idle := fun h0 => by simp [h0, Phase.inBitLoop] at hp
  obtain ⟨i, -, hi, hm⟩ := h.current h0
  rw [hi]
  cases hp' : s.phase <;> simp_all [Phase.inBitLoop]

/-- The waits of DELAY and WAIT_WHILE are no part of READ. -/
theorem State.Inv.not_isRead_of_wait {s : State} (h : s.Inv) (hp : s.phase = .delayWait ∨ s.phase = .levelWait) :
    s.cur.isRead = false := by
  have h0 : s.phase ≠ .idle := fun h0 => by simp [h0] at hp
  obtain ⟨i, -, hi, hm⟩ := h.current h0
  refine Cur.not_isRead hi ?_
  rintro rfl
  obtain hp | hp := hp <;> simp [hp] at hm

namespace TickEffect
section
variable {s t : State} (ht : TickEffect s t)
include ht

/-- A tick ends the command or takes it to one of its own phases (10_state.md R31). -/
theorem phase_mem {i : Instr} (hi : s.cur.instr? = some i) (hm : s.phase ∈ phasesOf i) :
    t.phase = .idle ∨ t.phase ∈ phasesOf i := by
  cases ht with
  | idles hp => exact .inl hp
  | waits => exact .inr hm
  | watches => exact .inr hm
  | delayBegins n _ hi' => exact .inr (delayWait_mem_phasesOf.2 ⟨n, Option.some.inj (hi.symm.trans hi')⟩)
  | waitBegins l _ hi' => exact .inr (levelWait_mem_phasesOf.2 ⟨l, Option.some.inj (hi.symm.trans hi')⟩)
  | startBegins _ hi' => exact .inr (startLow_mem_phasesOf.2 (by simpa [hi] using hi'))
  | captureBegins _ hi' => exact .inr (capWaitLow_mem_phasesOf.2 (.inl (Option.some.inj (hi.symm.trans hi'))))
  | readReleases _ _ hr => exact .inr (capWaitLow_mem_phasesOf.2 (.inr (Option.some.inj (hi.symm.trans (Cur.isRead_iff.1 hr)))))
  | pinRises hp => exact .inr (by simpa [hp] using hm)
  | lineRises hp => exact .inr (by simpa [hp] using hm)
  | samples hp => exact .inr (by simpa [hp] using hm)
  | bitEnds hp => exact .inr (by simpa [hp] using hm)
  | _ => exact .inl rfl

/-! ### What the invariant says of a phase, after a tick -/

/-- In DELAY_WAIT after a tick the wait is unfinished, or DELAY has just zeroed the counter (40_timer.md R105). -/
theorem delay_running (hp : t.phase = .delayWait) : t.cnt < t.cur.count := by
  cases ht with
  | idles h0 => simp [h0] at hp
  | waits n hn hlt => exact State.timedWait_unique hn (.inl ⟨hp, rfl⟩) ▸ hlt
  | watches hw => simp [show s.phase = .delayWait from hp] at hw
  | delayBegins n _ hi hpos => simpa [Cur.count_of_delay hi] using hpos
  | _ => simp at hp

theorem startLow_running (h : s.Inv) (hp : t.phase = .startLow) : t.cnt < t.params.startLowUs := by
  cases ht with
  | idles h0 => simp [h0] at hp
  | waits n hn hlt => exact State.timedWait_unique hn (.inr (.inl ⟨hp, rfl⟩)) ▸ hlt
  | watches hw => simp [show s.phase = .startLow from hp] at hw
  | startBegins => have := h.params_legal.startLow_ge; simp; omega
  | _ => simp at hp

theorem startHigh_running (hp : t.phase = .startHigh) : t.cnt < Config.startHighUs := by
  cases ht with
  | idles h0 => simp [h0] at hp
  | waits n hn hlt => exact State.timedWait_unique hn (.inr (.inr (.inl ⟨hp, rfl⟩))) ▸ hlt
  | watches hw => simp [show s.phase = .startHigh from hp] at hw
  | pinRises => simp [Config.startHighUs]
  | _ => simp at hp

theorem sample_running (hp : t.phase = .capDelay) : t.cnt < Config.sampleUs := by
  cases ht with
  | idles h0 => simp [h0] at hp
  | waits n hn hlt => exact State.timedWait_unique hn (.inr (.inr (.inr ⟨hp, rfl⟩))) ▸ hlt
  | watches hw => simp [show s.phase = .capDelay from hp] at hw
  | lineRises => simp [Config.sampleUs]
  | _ => simp at hp

theorem startLow_drives (h : s.Inv) (hp : t.phase = .startLow) : t.mode = .output ∧ t.olat = false := by
  cases ht with
  | idles => exact h.startLow_drives hp
  | waits => exact h.startLow_drives hp
  | watches => exact h.startLow_drives hp
  | startBegins => exact ⟨rfl, rfl⟩
  | _ => simp at hp

theorem startHigh_drives (h : s.Inv) (hp : t.phase = .startHigh) : t.mode = .output ∧ t.olat = true := by
  cases ht with
  | idles => exact h.startHigh_drives hp
  | waits => exact h.startHigh_drives hp
  | watches => exact h.startHigh_drives hp
  | pinRises hp' => exact ⟨(h.startLow_drives hp').1, rfl⟩
  | _ => simp at hp

theorem read_released (h : s.Inv) (hp : t.phase.inBitLoop = true) (hr : t.cur.isRead = true) :
    t.mode = .input ∧ t.olat = true := by
  rw [ht.cur_eq] at hr
  have loop (hs : s.phase.inBitLoop = true) : s.mode = .input ∧ s.olat = true := h.read_released hs hr
  cases ht with
  | idles => exact loop hp
  | waits => exact loop hp
  | watches => exact loop hp
  | captureBegins _ hi => simp [Cur.not_isRead hi] at hr
  | readReleases hs => exact ⟨rfl, (h.startHigh_drives hs).2⟩
  | lineRises hs => exact loop (by simp [hs, Phase.inBitLoop])
  | samples hs => exact loop (by simp [hs, Phase.inBitLoop])
  | bitEnds hs => simpa using loop (by simp [hs, Phase.inBitLoop])
  | _ => simp [Phase.inBitLoop] at hp

theorem ok_completed (h : s.Inv) (hok : t.ok = true) :
    t.phase = .idle ∧ t.lastBit = true ∧ (t.cur.instr? = some .capture ∨ t.cur.instr? = some .read) := by
  obtain hs | ⟨hp, hlast, rfl⟩ := ht.ok_cases
  · have hs := h.ok_completed (hs ▸ hok)
    rw [ht.eq_count_of_idle hs.1]
    exact hs
  · exact ⟨rfl, hlast, h.capture_or_read (by simp [hp, Phase.inBitLoop])⟩

theorem read_completed (h : s.Inv) (hp : t.phase = .idle) (hr : t.cur.isRead = true) :
    t.ok = true ∧ t.mode = .input ∧ t.olat = true := by
  rw [ht.cur_eq] at hr
  have other {i : Instr} (hi : s.cur.instr? = some i) (hne : i ≠ .read) : t.ok = true ∧ t.mode = .input ∧ t.olat = true := by
    simp [Cur.not_isRead hi hne] at hr
  cases ht with
  | idles => exact h.read_completed hp hr
  | waits n hn => simp [State.timedWait, show s.phase = .idle from hp] at hn
  | watches hw => simp [show s.phase = .idle from hp] at hw
  | delayEnds hw => simp [h.not_isRead_of_wait (.inl hw)] at hr
  | waitEnds hw => simp [h.not_isRead_of_wait (.inr hw)] at hr
  | startEnds _ _ hr' => simp [hr'] at hr
  | captureEnds hs =>
    obtain ⟨hm, ho⟩ := h.read_released (by simp [hs, Phase.inBitLoop]) hr
    exact ⟨rfl, hm, ho⟩
  | cfgOut _ hi => exact other hi (by simp)
  | cfgIn _ hi => exact other hi (by simp)
  | write l _ hi => exact other hi (by simp)
  | sense _ hi => exact other hi (by simp)
  | timReset _ hi => exact other hi (by simp)
  | delayZero _ hi => exact other hi (by simp)
  | _ => simp at hp

end
end TickEffect

/-- Every tick keeps the invariant. -/
theorem State.Inv.of_tick {s t : State} (h : s.Inv) (ht : TickEffect s t) : t.Inv where
  params_legal := ht.params_eq ▸ h.params_legal
  cnt_lt := ht.cnt_lt
  busy_iff_idle := ht.busy_iff_idle h.busy_iff_idle
  err_iff_cause := by
    rw [ht.err_eq, ht.errCause_eq]
    exact h.err_iff_cause
  command := fun hp => by
    have h0 : s.phase ≠ .idle := fun h0 => hp (by rw [ht.eq_count_of_idle h0]; exact h0)
    obtain ⟨i, hw, hcur, hm⟩ := h.command h0
    have hi : s.cur.instr? = some i := hcur ▸ Cur.instr_encode hw
    exact ⟨i, hw, ht.cur_eq.trans hcur, (ht.phase_mem hi hm).resolve_left hp⟩
  delay_running := ht.delay_running
  startLow_running := ht.startLow_running h
  startHigh_running := ht.startHigh_running
  sample_running := ht.sample_running
  startLow_drives := ht.startLow_drives h
  startHigh_drives := ht.startHigh_drives h
  read_released := ht.read_released h
  ok_completed := ht.ok_completed h
  read_completed := ht.read_completed h

/-- Every step keeps the invariant. -/
theorem State.Inv.of_step {s t : State} (h : s.Inv) (hs : StepEffect s t) : t.Inv := by
  cases hs with
  | tick d _ hd ht => exact (h.of_sameBlock hd).of_tick ht
  | reset _ ht => exact (State.Inv.applyReset h.params_legal).of_sameBlock ht
  | none ht => exact h.of_sameBlock ht
  | clears _ _ _ ht => exact h.clearErr.of_sameBlock ht
  | raisesBusy _ _ _ ht => exact (h.cmdError (by decide)).of_sameBlock ht
  | raisesIllegal _ _ _ _ _ ht => exact (h.cmdError (by decide)).of_sameBlock ht
  | accepts _ _ _ _ hd ht => exact (h.accept hd).of_sameBlock ht

/-- Settles O50: every step has one of the effects of `step_effect`, and each keeps the invariant. -/
theorem stepKeepsInv : Obligations.StepKeepsInv :=
  fun _ _ hinv h => hinv.of_step (step_effect h)

/-! ### STATUS and DATA as registers -/

end Sys2Proof.Machine
end

section
/-! SUPPORT. The STATUS word, field by field (spec/10_state.md R34). -/

namespace Sys2Proof.Machine

/-- Above the low part, a bit of two joined words is a bit of the high part. -/
theorem getLsbD_append_high {n m k : Nat} {x : BitVec n} {y : BitVec m} (h : m ≤ k) :
    (x ++ y).getLsbD k = x.getLsbD (k - m) := by
  rw [BitVec.getLsbD_append, if_neg h.not_gt]

theorem getLsbD_append_ofBool {n : Nat} {x : BitVec n} {b : Bool} : (x ++ BitVec.ofBool b).getLsbD 0 = b := by
  rw [BitVec.getLsbD_append, if_pos Nat.one_pos]
  cases b <;> rfl

namespace State
variable (s : State)

theorem statusWord_busy : s.statusWord.getLsbD 0 = s.busy :=
  getLsbD_append_ofBool

theorem statusWord_level : s.statusWord.getLsbD 1 = s.level := by
  rw [statusWord, getLsbD_append_high (by decide)]
  exact getLsbD_append_ofBool

theorem statusWord_mode : s.statusWord.getLsbD 2 = decide (s.mode = .output) := by
  have hbit : s.mode.bit = BitVec.ofBool (decide (s.mode = .output)) := by cases s.mode <;> rfl
  rw [statusWord, hbit]
  iterate 2 rw [getLsbD_append_high (by decide)]
  exact getLsbD_append_ofBool

theorem statusWord_olat : s.statusWord.getLsbD 3 = s.olat := by
  rw [statusWord]
  iterate 3 rw [getLsbD_append_high (by decide)]
  exact getLsbD_append_ofBool

theorem statusWord_err : s.statusWord.getLsbD 4 = s.err := by
  rw [statusWord]
  iterate 4 rw [getLsbD_append_high (by decide)]
  exact getLsbD_append_ofBool

theorem statusWord_errCause : s.statusWord.extractLsb' 5 2 = s.errCause.code := by
  rw [statusWord]
  iterate 5 rw [BitVec.extractLsb'_append_eq_of_le (by decide)]
  exact BitVec.extractLsb'_append_eq_right

theorem statusWord_ok : s.statusWord.getLsbD 7 = s.ok := by
  rw [statusWord]
  iterate 6 rw [getLsbD_append_high (by decide)]
  exact getLsbD_append_ofBool

theorem statusWord_phase : s.statusWord.extractLsb' 8 4 = s.phase.code := by
  rw [statusWord]
  iterate 7 rw [BitVec.extractLsb'_append_eq_of_le (by decide)]
  exact BitVec.extractLsb'_append_eq_right

theorem statusWord_bitIdx : (s.statusWord.extractLsb' 12 3).toNat = s.bitIdx.val := by
  rw [statusWord]
  iterate 8 rw [BitVec.extractLsb'_append_eq_of_le (by decide)]
  exact (congrArg BitVec.toNat BitVec.extractLsb'_append_eq_right).trans (Nat.mod_eq_of_lt s.bitIdx.isLt)

theorem statusWord_reserved_low : s.statusWord.getLsbD 15 = false := by
  rw [statusWord]
  iterate 9 rw [getLsbD_append_high (by decide)]
  exact getLsbD_append_ofBool (b := false)

theorem statusWord_byteIdx : (s.statusWord.extractLsb' 16 3).toNat = s.byteIdx.val := by
  rw [statusWord]
  iterate 10 rw [BitVec.extractLsb'_append_eq_of_le (by decide)]
  exact (congrArg BitVec.toNat BitVec.extractLsb'_append_eq_right).trans
    (Nat.mod_eq_of_lt (s.byteIdx.isLt.trans (by decide)))

theorem statusWord_reserved_high : s.statusWord.extractLsb' 19 13 = 0 := by
  rw [statusWord]
  iterate 10 rw [BitVec.extractLsb'_append_eq_of_le (by decide)]
  exact BitVec.extractLsb'_append_eq_left
end State
end Sys2Proof.Machine
end

section
/-! SUPPORT. The register file's statements: STATUS, CNT, DATA, the writers of the fields and R39 (spec/10_state.md). -/

namespace Sys2Proof.Machine

/-- STATUS bit 4 clears the error (20_memory.md R55). -/
theorem State.writeReg_status_clears (s : State) {v : Word} (h : v.getLsbD 4 = true) : s.writeReg 0x04 v = s.clearErr :=
  if_pos h

/-- No other bit of STATUS has an effect (20_memory.md R55). -/
theorem State.writeReg_status_ignored (s : State) {v : Word} (h : v.getLsbD 4 = false) : s.writeReg 0x04 v = s :=
  if_neg (Bool.eq_false_iff.1 h)

/-- DATA[j] stands at offset 0x0C + 4 j (20_memory.md R51). -/
theorem State.readReg_data (s : State) (j : Fin 5) : s.readReg (0x0C + 4 * j.val) = s.readData j := by
  fin_cases j <;> rfl

/-- A write of DATA[j] is ignored (10_state.md R37). -/
theorem State.writeReg_data (s : State) (j : Fin 5) (w : Word) : s.writeReg (0x0C + 4 * j.val) w = s := by
  fin_cases j <;> rfl

/-- Outside the bit loop of a command in progress a read of DATA[j] gives the byte (10_state.md R37). -/
theorem State.readData_outside {s : State} (j : Fin 5)
    (h : s.busy = false ∨ (s.phase ≠ .capWaitLow ∧ s.phase ≠ .capDelay ∧ s.phase ≠ .capWaitHigh)) :
    s.readData j = s.data[j.val].zeroExtend 32 := by
  have hb : (s.busy && s.phase.inBitLoop) = false := by
    obtain h | ⟨h6, h7, h8⟩ := h
    · rw [h, Bool.false_and]
    · cases hp : s.phase <;> simp_all [Phase.inBitLoop]
  simp [State.readData, hb]

/-! ### The invariants of R39 -/

/-- R39's bounds on J and PHASE hold in every state, so its other three relations are all a step has to keep. -/
theorem State.statusInv_iff {s : State} :
    s.StatusInv ↔ (s.busy = false ↔ s.phase = .idle) ∧ (s.err = false ↔ s.errCause = .noError) ∧ s.cnt < s.params.cntRange := by
  refine ⟨fun h => ⟨h.busy_iff_idle, h.err_iff_cause, h.cnt_lt⟩, fun ⟨hb, he, hc⟩ => ⟨hb, he, ?_, ?_, hc⟩⟩
  · rw [s.statusWord_byteIdx]
    exact Nat.le_of_lt_succ s.byteIdx.isLt
  · rw [s.statusWord_phase]
    cases s.phase <;> decide

theorem State.StatusInv.of_sameBlock {s t : State} (h : s.StatusInv) (hst : t.sameBlock s) : t.StatusInv := by
  obtain ⟨⟨-, -, hcnt, -, hbusy, -, -, hphase, -, -, -, hpar⟩, herr, hcause⟩ := hst
  rw [State.statusInv_iff] at h ⊢
  rwa [hcnt, hbusy, hphase, hpar, herr, hcause]

/-- The machine's invariant contains R39's. -/
theorem State.Inv.statusInv {s : State} (h : s.Inv) : s.StatusInv :=
  State.statusInv_iff.2 ⟨h.busy_iff_idle, h.err_iff_cause, h.cnt_lt⟩

theorem State.StatusInv.of_tick {s t : State} (h : s.StatusInv) (ht : TickEffect s t) : t.StatusInv := by
  refine State.statusInv_iff.2 ⟨ht.busy_iff_idle h.busy_iff_idle, ?_, ht.cnt_lt⟩
  rw [ht.err_eq, ht.errCause_eq]
  exact h.err_iff_cause

theorem State.StatusInv.applyReset (s : State) : s.applyReset.StatusInv :=
  State.statusInv_iff.2 ⟨by simp, by simp, Params.cntRange_pos _⟩

theorem State.StatusInv.clearErr {s : State} (h : s.StatusInv) : s.clearErr.StatusInv :=
  State.statusInv_iff.2 ⟨h.busy_iff_idle, by simp, h.cnt_lt⟩

theorem State.StatusInv.cmdError {s : State} (h : s.StatusInv) {c : ErrCause} (hc : c ≠ .noError) : (s.cmdError c).StatusInv := by
  refine State.statusInv_iff.2 ⟨?_, State.cmdError_err_iff_cause h.err_iff_cause hc, ?_⟩
  · rw [State.cmdError_busy, State.cmdError_phase]
    exact h.busy_iff_idle
  · rw [State.cmdError_cnt, State.cmdError_params]
    exact h.cnt_lt

theorem State.StatusInv.accept {s : State} (h : s.StatusInv) (w : Word) : (s.accept w).StatusInv :=
  State.statusInv_iff.2 ⟨by simp, h.err_iff_cause, h.cnt_lt⟩

/-- Every effect of a step keeps R39's relations. -/
theorem State.StatusInv.of_step {s t : State} (h : s.StatusInv) (hs : StepEffect s t) : t.StatusInv := by
  cases hs with
  | tick d _ hd ht => exact (h.of_sameBlock hd).of_tick ht
  | reset _ ht => exact (State.StatusInv.applyReset s).of_sameBlock ht
  | none ht => exact h.of_sameBlock ht
  | clears _ _ _ ht => exact h.clearErr.of_sameBlock ht
  | raisesBusy _ _ _ ht => exact (h.cmdError (by decide)).of_sameBlock ht
  | raisesIllegal _ _ _ _ _ ht => exact (h.cmdError (by decide)).of_sameBlock ht
  | accepts w _ _ _ _ ht => exact (h.accept w).of_sameBlock ht

/-- Settles O48: every effect of a step keeps R39's relations. -/
theorem stepKeepsStatusInv : Obligations.StepKeepsStatusInv :=
  fun _ _ hinv h => hinv.of_step (step_effect h)

/-- Settles O49: the reset state has the block of a Reset with the default parameters. -/
theorem resetMeetsInv : Obligations.ResetMeetsInv := by
  have hinv : State.reset.Inv := (State.Inv.applyReset (s := State.reset) Config.defaultParams_legal).of_sameBlock (.refl _)
  exact ⟨hinv.statusInv, hinv⟩

/-! ### The registers -/

/-- Settles O16: each field is the piece of the STATUS word at its place, and a write of STATUS is ignored or clears the error. -/
theorem statusLayout : Obligations.StatusLayout := by
  refine ⟨by decide, fun s => ⟨s.statusWord, ?_, s.statusWord_busy, s.statusWord_level, s.statusWord_mode, s.statusWord_olat,
    s.statusWord_err, s.statusWord_ok, ?_, ?_, s.statusWord_bitIdx, s.statusWord_reserved_low, s.statusWord_byteIdx,
    s.statusWord_reserved_high, ?_⟩⟩
  · exact after_memRead s (by decide) (by decide)
  · rw [s.statusWord_errCause]
    cases s.errCause <;> simp [ErrCause.code]
  · rw [s.statusWord_phase]
    cases s.phase <;> simp [Phase.code]
  · intro w
    rw [after_memWrite s w (by decide) (by decide)]
    cases hw : w.getLsbD 4
    · simp [State.hostWrite, State.writeReg_status_ignored s hw]
    · simp [State.hostWrite, State.writeReg_status_clears s hw, State.clearErr]

/-- Settles O17: legal parameters give CNT fewer than 32 bits, so the read loses none of it. -/
theorem counterRegister : Obligations.CounterRegister := by
  intro s hlegal hcnt
  have h32 : s.cnt < 2 ^ 32 := hcnt.trans_le hlegal.cntRange_le
  have hval : (BitVec.ofNat 32 s.cnt).toNat = s.cnt := by rw [BitVec.toNat_ofNat, Nat.mod_eq_of_lt h32]
  refine ⟨BitVec.ofNat 32 s.cnt, after_memRead s (by decide) (by decide), hval, fun k hk => ?_,
    fun w => after_memWrite s w (by decide) (by decide)⟩
  rw [BitVec.getLsbD, hval]
  exact Nat.testBit_lt_two_pow (hcnt.trans_le (Nat.pow_le_pow_right (by decide) hk))

/-- Settles O18: DATA[j]'s offset reads the byte outside the bit loop, and no write reaches the byte. -/
theorem dataRegisters : Obligations.DataRegisters := by
  intro s j
  have hlt : 0x0C + 4 * j.val < 0x40 := by have := j.isLt; omega
  have h4 : (0x0C + 4 * j.val) % 4 = 0 := by omega
  refine ⟨fun h => ⟨s.data[j.val].zeroExtend 32, ?_, ?_, ?_⟩, fun w => ?_⟩
  · rw [after_memRead s hlt h4, State.hostRead, State.readReg_data, State.readData_outside j h]
  · exact BitVec.eq_of_toNat_eq (by simpa using s.data[j.val].isLt)
  · ext k hk; simp
  · rw [after_memWrite s w hlt h4, State.hostWrite, State.writeReg_data]

/-! ### The writers of the fields -/

/-- Settles O45: field by field, by what a step's effect writes; the invariant says that the bit loop is CAPTURE's or READ's. -/
theorem fieldWriters : Obligations.FieldWriters := by
  intro s t hinv h
  have hs := step_effect h
  refine ⟨fun hne => ?_, fun hne => hs.level_cases.resolve_left hne, fun h0 h1 => ?_, fun h1 h0 => ?_, fun hne => ?_⟩
  · obtain hr | ⟨htick, hp⟩ := hs.data_cases.resolve_left hne
    · exact .inl hr
    · exact .inr ⟨htick, hp, hinv.capture_or_read (by simp [hp, Phase.inBitLoop])⟩
  · obtain hok | ⟨htick, hp, hlast, -, hb⟩ | ⟨-, hok⟩ | ⟨w, -, -, -, -, ht⟩ := hs.ok_cases
    · simp [hok, h0] at h1
    · exact ⟨htick, hp, hlast, hb, hinv.capture_or_read (by simp [hp, Phase.inBitLoop])⟩
    · simp [hok] at h1
    · simp [ht.ok_eq] at h1
  · obtain hok | ⟨-, -, -, hok, -⟩ | ⟨hr, -⟩ | ⟨w, i, hw, hb, hi, ht⟩ := hs.ok_cases
    · simp [hok, h1] at h0
    · simp [hok] at h0
    · exact .inl hr
    · exact .inr ⟨w, i, hw, hb, hi, ht.busy_eq, ht.phase_eq⟩
  · obtain hr | ⟨w, i, hw, hb, hi, ht⟩ := hs.cur_cases.resolve_left hne
    · exact .inl hr
    · exact .inr ⟨w, i, hw, hb, hi, ht.busy_eq, ht.phase_eq, ht.ok_eq, ht.cur_eq⟩

end Sys2Proof.Machine
end

section
/-! SUPPORT. The register window's statements: which accesses are admitted, what reads and writes do, and that nothing but an access is
refused (spec/20_memory.md R51-R55). -/

namespace Sys2Proof.Machine

/-! ### Which accesses are admitted (20_memory.md R52) -/

/-- SWSI raises no fault (60_exceptions.md R209), so an outcome without a next state is a refusal. -/
theorem refused_iff_not_next (o : Host.Outcome State Fault Refusal) : (∃ r, o = .refused r) ↔ ¬ ∃ t, o = .next t := by
  cases o with
  | next t => simp
  | fault x => cases x
  | refused r => simp

/-- A program's access is refused for its place in the window alone: its size is always 4 (30_encoding.md R78). -/
theorem admitOffset_refused {off : Nat} {r : Refusal} (h : admitOffset off = .refused r) :
    r = .accessWindow ∨ r = .accessAlignment := by
  unfold admitOffset at h
  split at h
  · exact .inl (by simpa using h.symm)
  · split at h
    · exact .inr (by simpa using h.symm)
    · cases h

/-- The three names under which a bus access is refused (20_memory.md R52). -/
theorem State.admission_refused {s : State} {addr size : Nat} {r : Refusal} (h : s.admission addr size = .refused r) :
    r = .accessSize ∨ r = .accessWindow ∨ r = .accessAlignment := by
  unfold State.admission at h
  split at h
  · exact .inl (by simpa using h.symm)
  · split at h
    · exact .inr (.inl (by simpa using h.symm))
    · exact .inr (admitOffset_refused h)

/-- `a` is a read or a write of `size` bytes at `addr`. -/
def Access.isAt (a : Access) (addr size : Nat) : Prop := a = .read addr size ∨ ∃ v, a = .write addr size v

theorem Access.exists_isAt (a : Access) : ∃ addr size, a.isAt addr size := by
  cases a with
  | read addr size => exact ⟨addr, size, .inl rfl⟩
  | write addr size v => exact ⟨addr, size, .inr ⟨v, rfl⟩⟩

/-- An access has a next state exactly where it is admitted, and is refused as its admission says otherwise (20_memory.md R52). -/
theorem hostAccess_cases {a : Access} {addr size : Nat} (ha : a.isAt addr size) (s : State) :
    (∃ off t, s.admission addr size = .admitted off ∧ hostAccess a s = .next t) ∨
    (∃ r, s.admission addr size = .refused r ∧ hostAccess a s = .refused r) := by
  obtain rfl | ⟨v, rfl⟩ := ha <;> cases h : s.admission addr size with
  | admitted off => exact .inl ⟨off, _, rfl, by simp only [hostAccess, h]; rfl⟩
  | refused r => exact .inr ⟨r, rfl, by simp only [hostAccess, h]⟩

/-- The step of a bus access is the access itself (00_scope.md R10). -/
theorem step_access {s : State} {a : Access} {rest : List Turn} (h : s.turns = .access a :: rest) :
    step s = hostAccess a { s with turns := rest } := by
  simp only [step, h, takeTurn]

/-- The step of a bus access has a next state exactly for 4 bytes at a multiple of 4 inside the window (20_memory.md R52). -/
theorem step_access_next_iff {s : State} {a : Access} {addr size : Nat} {rest : List Turn} (ha : a.isAt addr size)
    (h : s.turns = .access a :: rest) :
    (∃ t, step s = .next t) ↔ (size = 4 ∧ ∃ off, off < 0x40 ∧ off % 4 = 0 ∧ addr = s.params.base + off) := by
  rw [step_access h]
  obtain ⟨off, t, hadm, ht⟩ | ⟨r, hadm, hr⟩ := hostAccess_cases ha { s with turns := rest }
  · obtain ⟨hsize, haddr, hlt, h4⟩ := State.admission_admitted.1 hadm
    exact ⟨fun _ => ⟨hsize, off, hlt, h4, haddr⟩, fun _ => ⟨t, ht⟩⟩
  · refine ⟨fun ⟨t, ht⟩ => by simp [hr] at ht, fun ⟨hsize, off, hlt, h4, haddr⟩ => ?_⟩
    have hadm' : ({ s with turns := rest } : State).admission addr size = .admitted off :=
      State.admission_admitted.2 ⟨hsize, haddr, hlt, h4⟩
    simp [hadm'] at hadm

/-- Settles O13: the admission of the access decides between a next state and a refusal, for reads and writes alike. -/
theorem onlyAlignedWordsAdmitted : Obligations.OnlyAlignedWordsAdmitted := by
  intro s rest addr size
  refine ⟨fun v h => ?_, fun h => ?_⟩
  · have hnext := step_access_next_iff (.inr ⟨v, rfl⟩) h
    exact ⟨(refused_iff_not_next _).trans (not_congr hnext), hnext⟩
  · have hnext := step_access_next_iff (.inl rfl) h
    exact ⟨(refused_iff_not_next _).trans (not_congr hnext), hnext⟩

/-! ### What a write does (20_memory.md R55) -/

/-- A write from offset 0x08 on is ignored (20_memory.md R53, R55). -/
theorem State.writeReg_ignored (s : State) {off : Nat} (v : Word) (h : 0x08 ≤ off) : s.writeReg off v = s := by
  obtain ⟨h0, -⟩ | ⟨h4, -⟩ | ⟨h4, -⟩ | ⟨-, -, hw⟩ := s.writeReg_cases off v
  · omega
  · omega
  · omega
  · exact hw

/-- The fields that only commands write (20_memory.md R55). -/
def State.sameCommandFields (s t : State) : Prop := s.mode = t.mode ∧ s.olat = t.olat ∧ s.cnt = t.cnt ∧ s.data = t.data

theorem State.writeCmd_sameCommandFields (s : State) (w : Word) : (s.writeCmd w).sameCommandFields s := by
  obtain ⟨-, h⟩ | ⟨-, -, h⟩ | ⟨-, -, h⟩ := s.writeCmd_cases w <;> rw [h]
  · exact ⟨s.cmdError_mode _, s.cmdError_olat _, s.cmdError_cnt _, s.cmdError_data _⟩
  · exact ⟨s.cmdError_mode _, s.cmdError_olat _, s.cmdError_cnt _, s.cmdError_data _⟩
  · exact ⟨rfl, rfl, rfl, rfl⟩

theorem State.hostWrite_sameCommandFields (s : State) (off : Nat) (v : Word) : (s.hostWrite off v).sameCommandFields s := by
  have hreg : (s.writeReg off v).sameCommandFields s := by
    obtain ⟨-, h⟩ | ⟨-, -, h⟩ | ⟨-, -, h⟩ | ⟨-, -, h⟩ := s.writeReg_cases off v <;> rw [h]
    · exact s.writeCmd_sameCommandFields v
    all_goals exact ⟨rfl, rfl, rfl, rfl⟩
  exact hreg

/-- Settles O15: the write at each offset, by what `writeReg` does there. -/
theorem writeSideEffects : Obligations.WriteSideEffects := by
  intro s off v hlt h4
  refine ⟨s.hostWrite off v, after_memWrite s v hlt h4, ?_, ?_, ?_, fun h => ?_, s.hostWrite_sameCommandFields off v⟩
  · rintro rfl
    rfl
  · rintro rfl hv
    rw [State.hostWrite, s.writeReg_status_clears hv, State.clearErr]
  · rintro rfl hv
    rw [State.hostWrite, s.writeReg_status_ignored hv]
  · rw [State.hostWrite, s.writeReg_ignored v h]

/-! ### What a read gives (20_memory.md R53, R54) -/

/-- CMD and the reserved offsets read 0 (10_state.md R35, 20_memory.md R53). -/
theorem State.readReg_zero (s : State) {off : Nat} (h : off = 0x00 ∨ 0x20 ≤ off) : s.readReg off = 0 := by
  unfold State.readReg
  split
  iterate 7 · omega
  · rfl

/-- What a register reads does not depend on what HOST has read (20_memory.md R54). -/
theorem State.hostRead_hostRead (s : State) (off : Nat) : (s.hostRead off).hostRead off = s.hostRead off := rfl

/-- Settles O19: a read gives the 0 of `readReg`, and `writeReg` ignores the reserved offsets. -/
theorem zeroReadRegisters : Obligations.ZeroReadRegisters := by
  intro s off hoff
  have hlt : off < 0x40 := by omega
  have h4 : off % 4 = 0 := by omega
  refine ⟨?_, fun hne w => ?_⟩
  · rw [after_memRead s hlt h4, State.hostRead, s.readReg_zero (by omega)]
  · rw [after_memWrite s w hlt h4, State.hostWrite, s.writeReg_ignored w (by omega)]

/-- Settles O14: a read replaces HOST's value alone, and the second read finds the same registers. -/
theorem readsHaveNoSideEffect : Obligations.ReadsHaveNoSideEffect := by
  intro s off hlt h4
  refine ⟨s.readReg off, after_memRead s hlt h4, rfl, ?_⟩
  rw [after_cons, takeTurn_memRead s hlt h4]
  exact (after_memRead (s.hostRead off) hlt h4).trans (congrArg some (s.hostRead_hostRead off))

/-! ### Nothing but an access is refused (20_memory.md R52, 60_exceptions.md R205) -/

/-- Under the invariant a tick always has a next state: an ISSUE tick finds a command in CUR (60_exceptions.md R205). -/
theorem State.Inv.runCurrent_next {s : State} (h : s.Inv) : ∃ t, runCurrent s = .next t := by
  by_cases hp : s.phase = .issue
  · obtain ⟨i, -, hi, -⟩ := h.current (by simp [hp])
    exact ⟨_, (runCurrent_issue hp hi).trans (exec_issue i s hp)⟩
  · exact ⟨_, runCurrent_arm s hp⟩

/-- An access of the program has a next state or is refused for its offset; an ended program has a next state (30_encoding.md R78). -/
theorem programStep_cases (s : State) :
    (∃ t, programStep s = .next t) ∨
    ((∃ op ops, s.program = op :: ops) ∧
      (programStep s = .refused .accessWindow ∨ programStep s = .refused .accessAlignment)) := by
  unfold programStep
  split
  · exact .inl ⟨_, rfl⟩
  · exact .inl ⟨_, rfl⟩
  all_goals
    rename_i hprog
    split
    · rename_i hr
      refine .inr ⟨⟨_, _, hprog⟩, ?_⟩
      simpa using admitOffset_refused hr
    · exact .inl ⟨_, rfl⟩

/-- Settles O51: a tick and Reset always have a next state, and an access is refused under one of the names of its admission. -/
theorem onlyAccessesRefused : Obligations.OnlyAccessesRefused := by
  intro s hinv
  obtain ⟨-, hstep⟩ | ⟨turn, rest, hturns, hstep⟩ := step_eq s <;> rw [hstep]
  · exact .inl (hinv.of_sameBlock (t := s.draw none) (.refl s)).runCurrent_next
  · cases turn with
    | tick e =>
      exact .inl (hinv.of_sameBlock (t := ({ s with turns := rest } : State).draw e) (.refl s)).runCurrent_next
    | reset => exact .inl ⟨_, rfl⟩
    | access a =>
      obtain ⟨addr, size, ha⟩ := a.exists_isAt
      obtain ⟨-, t, -, ht⟩ | ⟨r, hadm, hr⟩ := hostAccess_cases ha { s with turns := rest }
      · exact .inl ⟨t, ht⟩
      · refine .inr ⟨.inl ⟨a, rest, hturns⟩, ?_⟩
        obtain rfl | rfl | rfl := State.admission_refused hadm
        · exact .inl hr
        · exact .inr (.inl hr)
        · exact .inr (.inr hr)
    | program =>
      obtain hnext | ⟨⟨op, ops, hprog⟩, hr⟩ := programStep_cases { s with turns := rest }
      · exact .inl hnext
      · exact .inr ⟨.inr ⟨rest, op, ops, hturns, hprog⟩, .inr hr⟩

end Sys2Proof.Machine
end

section
/-! SUPPORT. The encoding's statements: the rows of the opcode table, the illegal words and the assembler (spec/30_encoding.md R71-R80). -/

namespace Sys2Proof

/-! ### A command and its word (30_encoding.md R73, R77, R80) -/

/-- Settles O1: the fields of an encoded word are the command's, and the decoder reads the fields. -/
theorem decodeOfEncode : Obligations.DecodeOfEncode :=
  fun _ hw => decode_encode hw

/-- Settles O2: the decoder tests every field, and the four fields make up the word. -/
theorem encodeOfDecode : Obligations.EncodeOfDecode :=
  fun _ _ h => ⟨wf_of_decode h, encode_of_decode h⟩

/-! ### The rows (30_encoding.md R73) -/

/-- The command of a row with the given operands; a row without an operand has one command. -/
def Mnemonic.instr (m : Mnemonic) (l : Level) (n : Nat) : Instr :=
  match m with
  | .cfgOut => .cfgOut
  | .cfgIn => .cfgIn
  | .write => .write l
  | .sense => .sense
  | .timReset => .timReset
  | .delay => .delay n
  | .waitWhile => .waitWhile l
  | .start => .start
  | .capture => .capture
  | .read => .read

/-- The rows with a level operand (30_encoding.md R73). -/
def Mnemonic.hasLevel (m : Mnemonic) : Prop := m = .write ∨ m = .waitWhile

@[simp] theorem Mnemonic.mnemonic_instr (m : Mnemonic) (l : Level) (n : Nat) : (m.instr l n).mnemonic = m := by
  cases m <;> rfl

theorem Mnemonic.levelOperand_instr (m : Mnemonic) {l : Level} (n : Nat) (h : l = true → m.hasLevel) :
    (m.instr l n).levelOperand = l := by
  cases l
  · cases m <;> rfl
  · obtain rfl | rfl := h rfl <;> rfl

theorem Mnemonic.countOperand_instr (m : Mnemonic) (l : Level) {n : Nat} (h : n ≠ 0 → m = .delay) :
    (m.instr l n).countOperand = n := by
  by_cases hn : n = 0
  · subst hn
    cases m <;> rfl
  · rw [h hn]
    rfl

/-- A word with the opcode of a row, and with nothing in the fields the row marks 0, is the command of that row with the operands L
and US. -/
theorem decode_of_row {w : Word} {m : Mnemonic} (hrsv : rsvField w = 0) (hop : opField w = opField m.matchWord)
    (hl : levelField w = true → m.hasLevel) (hus : usField w ≠ 0 → m = .delay) :
    decode w = .cmd (m.instr (levelField w) (usField w).toNat) := by
  refine decode_eq_cmd_iff.2 ⟨hrsv, ?_, (m.levelOperand_instr _ hl).symm, (m.countOperand_instr _ fun h => hus ?_).symm⟩
  · rwa [m.mnemonic_instr]
  · intro h0
    exact h (by rw [h0]; rfl)

theorem opField_and (v w : Word) : opField (v &&& w) = opField v &&& opField w := BitVec.extractLsb'_and

theorem rsvField_and (v w : Word) : rsvField (v &&& w) = rsvField v &&& rsvField w := BitVec.extractLsb'_and

theorem usField_and (v w : Word) : usField (v &&& w) = usField v &&& usField w := BitVec.extractLsb'_and

theorem levelField_and (v w : Word) : levelField (v &&& w) = (levelField v && levelField w) := BitVec.getLsbD_and ..

/-! The masks of the rows: OP and RSV are always tested, L and US where they hold no operand of the row. -/

theorem Mnemonic.opField_maskWord (m : Mnemonic) : opField m.maskWord = BitVec.allOnes 4 := by cases m <;> rfl

theorem Mnemonic.rsvField_maskWord (m : Mnemonic) : rsvField m.maskWord = BitVec.allOnes 11 := by cases m <;> rfl

theorem Mnemonic.levelField_maskWord (m : Mnemonic) (h : ¬ m.hasLevel) : levelField m.maskWord = true := by
  cases m with
  | write => exact absurd (.inl rfl) h
  | waitWhile => exact absurd (.inr rfl) h
  | _ => rfl

theorem Mnemonic.usField_maskWord (m : Mnemonic) (h : m ≠ .delay) : usField m.maskWord = BitVec.allOnes 16 := by
  cases m with
  | delay => exact absurd rfl h
  | _ => rfl

/-! The `match` column outside OP. -/

theorem Mnemonic.rsvField_matchWord (m : Mnemonic) : rsvField m.matchWord = 0 := by cases m <;> rfl

theorem Mnemonic.levelField_matchWord (m : Mnemonic) : levelField m.matchWord = false := m.matchWord_getLsbD le_rfl

theorem Mnemonic.usField_matchWord (m : Mnemonic) : usField m.matchWord = 0 := by cases m <;> rfl

/-- A word that matches a row is that row's command, with the operands L and US. -/
theorem decode_of_match {w : Word} {m : Mnemonic} (h : w &&& m.maskWord = m.matchWord) :
    decode w = .cmd (m.instr (levelField w) (usField w).toNat) := by
  refine decode_of_row ?_ ?_ (fun hl => ?_) (fun hus => ?_)
  · rw [← m.rsvField_matchWord, ← h, rsvField_and, m.rsvField_maskWord, BitVec.and_allOnes]
  · rw [← h, opField_and, m.opField_maskWord, BitVec.and_allOnes]
  · by_contra hm
    have := congrArg levelField h
    rw [levelField_and, m.levelField_maskWord hm, hl, m.levelField_matchWord] at this
    cases this
  · by_contra hm
    apply hus
    rw [← m.usField_matchWord, ← h, usField_and, m.usField_maskWord hm, BitVec.and_allOnes]

/-- The word of a command with an encoding matches its row. -/
theorem encode_match (i : Instr) : Laws.EncodingRow.Statement i :=
  match i with
  | .cfgOut => Laws.EncodingRow.cfgOut
  | .cfgIn => Laws.EncodingRow.cfgIn
  | .write l => Laws.EncodingRow.write l
  | .sense => Laws.EncodingRow.sense
  | .timReset => Laws.EncodingRow.timReset
  | .delay n => Laws.EncodingRow.delay n
  | .waitWhile l => Laws.EncodingRow.waitWhile l
  | .start => Laws.EncodingRow.start
  | .capture => Laws.EncodingRow.capture
  | .read => Laws.EncodingRow.read

/-- "A word w encodes the command if and only if `(w & mask) == match`" (30_encoding.md R73). -/
theorem match_iff_decode {w : Word} {m : Mnemonic} :
    w &&& m.maskWord = m.matchWord ↔ ∃ i, decode w = .cmd i ∧ i.mnemonic = m := by
  constructor
  · intro h
    exact ⟨_, decode_of_match h, m.mnemonic_instr _ _⟩
  · rintro ⟨i, hi, rfl⟩
    have h := encode_match i (wf_of_decode hi)
    rwa [encode_of_decode hi] at h

/-- Settles O3: a matching word and its command determine each other, and a word decodes to one command at most. -/
theorem rowsSelectCommands : Obligations.RowsSelectCommands := by
  intro w
  refine ⟨fun m => match_iff_decode, fun i hi => ?_, fun m n hm hn => ?_⟩
  · obtain ⟨hrsv, -, hl, hus⟩ := decode_eq_cmd_iff.1 hi
    exact ⟨hl.symm, hus.symm, hrsv⟩
  · obtain ⟨i, hi, rfl⟩ := match_iff_decode.1 hm
    obtain ⟨j, hj, rfl⟩ := match_iff_decode.1 hn
    rw [hi, Decoded.cmd.injEq] at hj
    rw [hj]

/-! ### The illegal words (30_encoding.md R74) -/

theorem illegal_iff_not_cmd {w : Word} : (∃ why, decode w = .illegal why) ↔ ∀ i, decode w ≠ .cmd i := by
  cases decode w <;> simp

theorem illegal_iff_no_match {w : Word} :
    (∃ why, decode w = .illegal why) ↔ ∀ m : Mnemonic, w &&& m.maskWord ≠ m.matchWord := by
  rw [illegal_iff_not_cmd]
  constructor
  · intro h m hm
    exact h _ (decode_of_match hm)
  · intro h i hi
    exact h i.mnemonic (match_iff_decode.2 ⟨i, hi, rfl⟩)

/-! The opcodes of the rows (30_encoding.md R71). -/

theorem Mnemonic.opField_ne_zero (m : Mnemonic) : opField m.matchWord ≠ 0 := by cases m <;> decide

theorem Mnemonic.opField_lt (m : Mnemonic) : (opField m.matchWord).toNat < 0xB := by cases m <;> decide

theorem exists_row_of_opcode : ∀ op : BitVec 4, op ≠ 0 → op.toNat < 0xB → ∃ m ∈ Mnemonic.all, op = opField m.matchWord := by
  decide

theorem Mnemonic.hasLevel_iff_opcode (m : Mnemonic) : m.hasLevel ↔ opField m.matchWord = 0x3 ∨ opField m.matchWord = 0x7 := by
  unfold Mnemonic.hasLevel
  cases m <;> decide

theorem Mnemonic.eq_delay_iff_opcode (m : Mnemonic) : m = .delay ↔ opField m.matchWord = 0x6 := by cases m <;> decide

theorem Instr.hasLevel_of_levelOperand {i : Instr} (h : i.levelOperand = true) : i.mnemonic.hasLevel := by
  cases i with
  | write l => exact .inl rfl
  | waitWhile l => exact .inr rfl
  | _ => cases h

theorem Instr.eq_delay_of_countOperand {i : Instr} (h : i.countOperand ≠ 0) : i.mnemonic = .delay := by
  cases i with
  | delay n => rfl
  | _ => exact absurd rfl h

/-- The three cases of 30_encoding.md R74, by fields. -/
def IllegalFields (w : Word) : Prop :=
  opField w = 0 ∨ 0xB ≤ (opField w).toNat ∨ rsvField w ≠ 0 ∨
    (levelField w = true ∧ opField w ≠ 0x3 ∧ opField w ≠ 0x7) ∨ (usField w ≠ 0 ∧ opField w ≠ 0x6)

/-- The word of a command is in none of R74's cases. -/
theorem not_illegalFields_of_decode {w : Word} {i : Instr} (h : decode w = .cmd i) : ¬ IllegalFields w := by
  obtain ⟨hrsv, hop, hl, hus⟩ := decode_eq_cmd_iff.1 h
  simp only [IllegalFields, hop]
  rintro (h0 | hB | hr | ⟨hlevel, h3, h7⟩ | ⟨hcount, h6⟩)
  · exact i.mnemonic.opField_ne_zero h0
  · exact hB.not_gt i.mnemonic.opField_lt
  · exact hr hrsv
  · have hrow := i.mnemonic.hasLevel_iff_opcode.1 (Instr.hasLevel_of_levelOperand (hl ▸ hlevel))
    exact hrow.elim h3 h7
  · have hne : i.countOperand ≠ 0 := fun h0 => hcount (BitVec.eq_of_toNat_eq (hus.trans h0))
    exact h6 (i.mnemonic.eq_delay_iff_opcode.1 (Instr.eq_delay_of_countOperand hne))

/-- A word in none of R74's cases has the opcode of a row and meets the row's requirements. -/
theorem exists_decode_of_not_illegalFields {w : Word} (h : ¬ IllegalFields w) : ∃ i, decode w = .cmd i := by
  simp only [IllegalFields, not_or, not_and_or, not_not, not_le] at h
  obtain ⟨hop0, hopB, hrsv, hl, hus⟩ := h
  obtain ⟨m, -, hop⟩ := exists_row_of_opcode _ hop0 hopB
  rw [hop] at hl hus
  refine ⟨_, decode_of_row hrsv hop (fun hlevel => ?_) (fun hcount => ?_)⟩
  · exact m.hasLevel_iff_opcode.2 (hl.resolve_left (not_not.2 hlevel))
  · exact m.eq_delay_iff_opcode.2 (hus.resolve_left hcount)

theorem illegal_iff_illegalFields {w : Word} : (∃ why, decode w = .illegal why) ↔ IllegalFields w := by
  rw [illegal_iff_not_cmd]
  constructor
  · intro h
    by_contra hf
    obtain ⟨i, hi⟩ := exists_decode_of_not_illegalFields hf
    exact h i hi
  · intro hf i hi
    exact not_illegalFields_of_decode hi hf

/-- Settles O6: the decoder, run on each of the fifteen words. -/
theorem vectorWordsDecode : Obligations.VectorWordsDecode := by
  unfold Obligations.VectorWordsDecode
  decide

/-! ### The assembler (30_encoding.md R77) -/

theorem assembleLevel_eq_some {f : Level → Instr} {n : Nat} {i : Instr} :
    assembleLevel f n = some i ↔ ∃ l : Level, n = l.toNat ∧ i = f l := by
  rcases n with - | - | n <;> simp [assembleLevel, eq_comm]

/-- A command with an encoding assembles from its own line. -/
theorem assemble_asmLine {i : Instr} (hw : i.wf = true) : assemble i.asmLine = some i := by
  cases i with
  | delay n => exact if_pos (of_decide_eq_true hw)
  | write l => exact assembleLevel_eq_some.2 ⟨l, rfl, rfl⟩
  | waitWhile l => exact assembleLevel_eq_some.2 ⟨l, rfl, rfl⟩
  | _ => rfl

/-- The assembler accepts a command's own line alone, with its operand in range. -/
theorem asmLine_of_assemble {a : AsmLine} {i : Instr} (h : assemble a = some i) : a = i.asmLine ∧ i.wf = true := by
  obtain ⟨m, imm⟩ := a
  simp only [assemble] at h
  split at h -- one case per form of R77, in the order of its table, and the refusal
  case h_3 n =>
    obtain ⟨l, rfl, rfl⟩ := assembleLevel_eq_some.1 h
    exact ⟨rfl, rfl⟩
  case h_6 n =>
    split at h
    · rename_i hn
      cases h
      exact ⟨rfl, decide_eq_true hn⟩
    · cases h
  case h_7 n =>
    obtain ⟨l, rfl, rfl⟩ := assembleLevel_eq_some.1 h
    exact ⟨rfl, rfl⟩
  case h_11 => cases h
  all_goals
    cases h
    exact ⟨rfl, rfl⟩

/-- Settles O5: a line that assembles is the form of its command, and every form with its operand in range assembles. -/
theorem assemblerForms : Obligations.AssemblerForms := by
  intro a i
  constructor
  · exact asmLine_of_assemble
  · rintro ⟨rfl, hw⟩
    exact assemble_asmLine hw

end Sys2Proof
end

section
/-! SUPPORT. Command acceptance, host programs and pseudo-instructions (spec/30_encoding.md R74, R78, R79, R81). -/

namespace Sys2Proof.Machine

/-! ### Acceptance (30_encoding.md R74, R81) -/

theorem State.writeCmd_of_busy {s : State} (w : Word) (hb : s.busy = true) : s.writeCmd w = s.cmdError .busy :=
  if_pos hb

theorem State.writeCmd_of_illegal {s : State} {w : Word} (hb : s.busy = false) (h : ∃ why, decode w = .illegal why) :
    s.writeCmd w = s.cmdError .illegal := by
  obtain ⟨why, h⟩ := h
  simp [State.writeCmd, hb, h]

theorem State.writeCmd_of_cmd {s : State} {w : Word} {i : Instr} (hb : s.busy = false) (h : decode w = .cmd i) :
    s.writeCmd w = s.accept w := by
  simp [State.writeCmd, hb, h]

/-- Settles O4: the words that decode to no command are those no row matches and those of R74's cases; a CMD write of one raises ILLEGAL. -/
theorem illegalWordsRejected : Obligations.IllegalWordsRejected := by
  refine ⟨fun w => ⟨illegal_iff_no_match, illegal_iff_illegalFields⟩, ⟨.opcode, by decide⟩, fun s w hb hm => ?_⟩
  rw [State.writeCmd_of_illegal hb (illegal_iff_no_match.2 hm), State.cmdError_eq]

/-- HOST's CMD write is one step: acceptance, and the end of the stretch of free values (20_memory.md R55). -/
theorem step_writeCmd {s : State} {w : Word} {rest : List Turn} (h : s.turns = memWrite s 0x00 w :: rest) :
    step s = .next { s.writeCmd w with draws := s.draws + 1, turns := rest } := by
  calc step s = takeTurn (memWrite s 0x00 w) { s with turns := rest } := step_access h
    _ = .next (({ s with turns := rest } : State).hostWrite 0x00 w) :=
      takeTurn_memWrite { s with turns := rest } w (by decide) (by decide)
    _ = .next { s.hostWrite 0x00 w with turns := rest } := by rw [State.hostWrite_withTurns]

/-- A tick step is ENV's draw and the command in CUR (40_timer.md R100). -/
theorem step_tick {s : State} {e : Option Level} {rest : List Turn} (h : s.turns = .tick e :: rest) :
    step s = runCurrent (({ s with turns := rest } : State).draw e) := by
  simp only [step, h, takeTurn, tick]

/-- The tick after an acceptance is the accepted command's issue tick (30_encoding.md R81, 40_timer.md R100). -/
theorem step_tick_of_accepted {s : State} {w : Word} {i : Instr} {e : Option Level} {rest : List Turn}
    (h : s.turns = .tick e :: rest) (hp : s.phase = .issue) (hc : s.cur = Cur.ofWord w) (hd : decode w = .cmd i) :
    step s = exec i (({ s with turns := rest } : State).draw e) :=
  (step_tick h).trans (runCurrent_issue hp (hc ▸ Cur.instr_of_decode hd))

/-- Settles O7: the CMD write by its three cases, and the issue tick of the command that acceptance latched. -/
theorem commandAcceptance : Obligations.CommandAcceptance := by
  intro s w rest hturns
  have hstep := step_writeCmd hturns
  refine ⟨fun hb => ?_, fun hb hill => ?_, fun i hb hcmd => ?_⟩
  · rw [hstep, State.writeCmd_of_busy w hb, State.cmdError_eq]
  · rw [hstep, State.writeCmd_of_illegal hb (illegal_iff_not_cmd.2 hill), State.cmdError_eq]
  · rw [State.writeCmd_of_cmd hb hcmd] at hstep
    exact ⟨_, hstep, rfl, fun e later => step_tick_of_accepted rfl rfl rfl hcmd⟩

/-! ### The expansions (30_encoding.md R78, R79) -/

/-- Settles O55: the expansions are the table of R79 row by row. -/
theorem pseudoExpansions : Obligations.PseudoExpansions := by
  intro p
  exact ⟨fun _ => rfl, rfl, rfl, rfl, rfl, rfl⟩

theorem expandIssue_of_wf {i : Instr} (hw : i.wf = true) : expandIssue i = some [.write 0x00 (encode i)] :=
  if_pos hw

theorem expandStmt_cmd {i : Instr} (hw : i.wf = true) : expandStmt (.cmd i) = some [.write 0x00 (encode i), .poll] := by
  rw [expandStmt, expandIssue_of_wf hw]
  rfl

/-! ### The steps of a host program (30_encoding.md R78) -/

/-- A POLL's read: the program stays at the POLL while BUSY = 1 and goes on where BUSY = 0. -/
theorem pollRead_eq (ops : List HostOp) (s : State) :
    pollRead ops s = { s.hostRead 0x04 with program := if s.busy then s.program else ops } := by
  have hbit : (s.hostRead 0x04).rdata.getLsbD 0 = s.busy := s.statusWord_busy
  unfold pollRead
  simp only [hbit]
  cases s.busy <;> rfl

theorem after_program_poll {s : State} {ops : List HostOp} (h : s.program = .poll :: ops) :
    after [.program] s = some { s.hostRead 0x04 with program := if s.busy then s.program else ops } := by
  rw [← pollRead_eq]
  simp only [after_one, takeTurn, programStep, h, nextState?]

theorem after_program_read {s : State} {off : Nat} {ops : List HostOp} (h : s.program = .read off :: ops) (hlt : off < 0x40)
    (h4 : off % 4 = 0) : after [.program] s = some (readVar ops off s) := by
  simp only [after_one, takeTurn, programStep, h, admitOffset_admitted.2 ⟨rfl, hlt, h4⟩, nextState?]

theorem after_program_write {s : State} {off : Nat} {v : Word} {ops : List HostOp} (h : s.program = .write off v :: ops)
    (hlt : off < 0x40) (h4 : off % 4 = 0) :
    after [.program] s = some (({ s with program := ops } : State).hostWrite off v) := by
  simp only [after_one, takeTurn, programStep, h, admitOffset_admitted.2 ⟨rfl, hlt, h4⟩, nextState?]

/-- A register write leaves HOST's program as it is. -/
@[simp] theorem State.hostWrite_program (s : State) (off : Nat) (v : Word) : (s.hostWrite off v).program = s.program := by
  have hcmd : (s.writeCmd v).program = s.program := by
    obtain ⟨-, h⟩ | ⟨-, -, h⟩ | ⟨-, -, h⟩ := s.writeCmd_cases v <;> simp [h]
  have hreg : (s.writeReg off v).program = s.program := by
    obtain ⟨-, h⟩ | ⟨-, -, h⟩ | ⟨-, -, h⟩ | ⟨-, -, h⟩ := s.writeReg_cases off v <;> simp [h, hcmd]
  exact hreg

/-- Settles O54: the table of R78 by the expansions, and each access of the program by its step. -/
theorem hostStatements : Obligations.HostStatements := by
  refine ⟨fun i hw => ⟨expandStmt_cmd hw, expandIssue_of_wf hw⟩, fun w => rfl, rfl, rfl, rfl, rfl, fun j => rfl,
    fun s ops hprog => ?_, fun s off ops hlt h4 hprog => ?_, fun s off v ops hlt h4 hprog => ?_⟩
  · refine ⟨_, after_program_poll hprog, rfl, s.statusWord_busy, fun hb => ?_, fun hb => ?_, .refl s⟩
    · exact (if_pos hb).trans hprog
    · simp [hb]
  · exact ⟨_, after_program_read hprog hlt h4, rfl, rfl, rfl, .refl s⟩
  · exact ⟨_, after_program_write hprog hlt h4, after_memWrite _ v hlt h4, State.hostWrite_program _ _ _⟩

/-! ### DRIVE (30_encoding.md R79) -/

theorem expandProgram_drive (p : Params) (l : Level) :
    expandProgram ((expandPseudo p (.drive l)).map .cmd) =
      some [.write 0x00 (encode (.write l)), .poll, .write 0x00 (encode .cfgOut), .poll] := rfl

/-- `f` gives the issue tick of the command `i`, which completes in it. -/
structure CompletesAtIssue (i : Instr) (f : State → State) : Prop where
  exec_eq : ∀ d : State, d.phase = .issue → exec i d = .next (f d)
  busy_eq : ∀ d : State, (f d).busy = false
  program_eq : ∀ d : State, (f d).program = d.program

theorem write_completesAtIssue (l : Level) : CompletesAtIssue (.write l) (issueWrite l) :=
  ⟨exec_issue (.write l), fun _ => rfl, fun _ => rfl⟩

theorem cfgOut_completesAtIssue : CompletesAtIssue .cfgOut issueCfgOut :=
  ⟨exec_issue .cfgOut, fun _ => rfl, fun _ => rfl⟩

/-- The statement `<cmd>` with one tick after its CMD write, for a command that completes at issue: the command runs on the latch
and pin mode it was issued at, and its POLL ends. -/
theorem after_cmd_statement {s : State} {i : Instr} {f : State → State} {ops : List HostOp} (hf : CompletesAtIssue i f) (e : Level)
    (hprog : s.program = .write 0x00 (encode i) :: .poll :: ops) (hw : i.wf = true) (hb : s.busy = false) :
    ∃ d : State, d.mode = s.mode ∧ d.olat = s.olat ∧
      after [.program, .tick (some e), .program] s = some { (f d).hostRead 0x04 with program := ops } := by
  obtain ⟨a, ha⟩ : ∃ a : State, a = ({ s with program := .poll :: ops } : State).hostWrite 0x00 (encode i) := ⟨_, rfl⟩
  have haccept : a = { ({ s with program := .poll :: ops } : State).accept (encode i) with draws := s.draws + 1 } := by
    have hcmd := State.writeCmd_of_cmd (s := { s with program := .poll :: ops }) hb (decode_encode hw)
    rw [ha, State.hostWrite, State.writeReg, hcmd]
  have hwrite : after [.program] s = some a := by rw [after_program_write hprog (by decide) (by decide), ha]
  have htick : after [.tick (some e)] a = some (f (a.draw (some e))) := by
    have hphase : (a.draw (some e)).phase = .issue := by rw [haccept]; rfl
    have hcur : (a.draw (some e)).cur.instr? = some i := by rw [haccept]; exact Cur.instr_encode hw
    rw [after_one, takeTurn, tick, runCurrent_issue hphase hcur, hf.exec_eq _ hphase, nextState?]
  have hpoll : after [.program] (f (a.draw (some e))) =
      some { (f (a.draw (some e))).hostRead 0x04 with program := ops } := by
    have hnext : (f (a.draw (some e))).program = .poll :: ops := by rw [hf.program_eq, haccept]; rfl
    rw [after_program_poll hnext, hf.busy_eq]
    rfl
  refine ⟨a.draw (some e), by rw [haccept]; rfl, by rw [haccept]; rfl, ?_⟩
  calc after ([.program] ++ [.tick (some e)] ++ [.program]) s
      = ((after [.program] s).bind (after [.tick (some e)])).bind (after [.program]) := by rw [after_append, after_append]
    _ = _ := by rw [hwrite, Option.bind_some, htick, Option.bind_some, hpoll]

/-- Settles O56: WRITE sets the latch before CFG_OUT is accepted, and CFG_OUT keeps it. -/
theorem driveSetsLatchFirst : Obligations.DriveSetsLatchFirst := by
  intro s l e1 e2 ops hb _ hops
  obtain rfl : _ = ops := Option.some.inj ((expandProgram_drive s.params l).symm.trans hops)
  obtain ⟨d, hmode, -, hwrite⟩ := after_cmd_statement (s := { s with program := _ }) (write_completesAtIssue l) e1 rfl rfl hb
  obtain ⟨d', -, holat, hcfg⟩ := after_cmd_statement (s := { (issueWrite l d).hostRead 0x04 with program := _ })
    cfgOut_completesAtIssue e2 rfl rfl rfl
  have haccept := after_program_write (s := { (issueWrite l d).hostRead 0x04 with
    program := [.write 0x00 (encode .cfgOut), .poll] }) rfl (by decide) (by decide)
  obtain ⟨hmode', holat', -⟩ :=
    ({ (issueWrite l d).hostRead 0x04 with program := [.poll] } : State).hostWrite_sameCommandFields 0x00 (encode .cfgOut)
  refine ⟨_, { (issueCfgOut d').hostRead 0x04 with program := [] }, ?_, hmode'.trans hmode, holat', ?_, rfl, holat, rfl, rfl⟩
  · rw [show [Turn.program, .tick (some e1), .program, .program] = [.program, .tick (some e1), .program] ++ [.program] from rfl,
      after_append, hwrite, Option.bind_some, haccept]
  · rw [show [Turn.program, .tick (some e1), .program, .program, .tick (some e2), .program] =
      [.program, .tick (some e1), .program] ++ [.program, .tick (some e2), .program] from rfl,
      after_append, hwrite, Option.bind_some, hcfg]

end Sys2Proof.Machine
end

section
/-! SUPPORT. The timer's statements: the counter, its zeroing, timed waits, TIM_RESET and DELAY (spec/40_timer.md). -/

namespace Sys2Proof.Machine

/-! ### The tick runs the command in CUR (40_timer.md R100) -/

/-- While a command is in progress, SEQ's part of a tick is the meaning of the command in CUR. -/
theorem runCurrent_exec {s : State} {i : Instr} (hp : s.phase ≠ .idle) (hi : s.cur.instr? = some i) :
    runCurrent s = exec i s := by
  simp [runCurrent, hp, hi]

/-- Settles O20: a tick step is the draw and SEQ's part, and SEQ's part is the meaning of the command in CUR. -/
theorem stepRunsCurrentCommand : Obligations.StepRunsCurrentCommand := by
  refine fun s i hp hi => ⟨fun e rest h => (step_tick h).trans (runCurrent_exec hp hi), fun h => ?_⟩
  have hstep : step s = runCurrent (s.draw none) := by simp only [step, h, tick]
  exact hstep.trans (runCurrent_exec hp hi)

/-! ### Acceptance, row by row (30_encoding.md R81) -/

/-- No two rows have the same opcode (30_encoding.md R71). -/
theorem opField_matchWord_inj {m m' : Mnemonic} (h : opField m.matchWord = opField m'.matchWord) : m = m' := by
  have hnodup : (Mnemonic.all.map fun m => opField m.matchWord).Nodup := by decide
  have hmem (m : Mnemonic) : m ∈ Mnemonic.all := by cases m <;> decide
  exact List.inj_on_of_nodup_map hnodup (hmem m) (hmem m') h

/-- A word with a row's opcode that does not match the row is no command's word. -/
theorem illegal_of_opcode_of_no_match {w : Word} {m : Mnemonic} (hop : opField w = opField m.matchWord)
    (hm : w &&& m.maskWord ≠ m.matchWord) : ∃ why, decode w = .illegal why := by
  refine illegal_iff_not_cmd.2 fun i hi => hm (match_iff_decode.2 ⟨i, hi, ?_⟩)
  obtain ⟨-, hop', -⟩ := decode_eq_cmd_iff.1 hi
  exact opField_matchWord_inj (hop'.symm.trans hop)

/-- The acceptance part of every command's rule. -/
theorem acceptsRow (m : Mnemonic) : AcceptsRow m := by
  refine fun s w hop => ⟨fun hb => ?_, fun hb hm => ?_, fun hb hm => ?_⟩
  · rw [State.writeCmd_of_busy w hb, State.cmdError_eq]
  · rw [State.writeCmd_of_illegal hb (illegal_of_opcode_of_no_match hop hm), State.cmdError_eq]
  · obtain ⟨i, hi, -⟩ := match_iff_decode.1 hm
    exact State.writeCmd_of_cmd hb hi

/-! ### What sets CNT (40_timer.md R101, R103) -/

/-- CUR.OP is the opcode of the command in CUR. -/
theorem Cur.op_of_instr {c : Cur} {i : Instr} (h : c.instr? = some i) : c.op = opField i.mnemonic.matchWord := by
  unfold Cur.instr? instrOfFields at h
  split at h
  case h_11 => cases h
  all_goals
    rename_i hop
    obtain rfl := Option.some.inj h
    exact BitVec.eq_of_toNat_eq hop

/-- The issue ticks that zero the counter are those of TIM_RESET, DELAY, START and READ. -/
theorem State.zeroes_issue {s : State} {i : Instr} (hp : s.phase = .issue) (hi : s.cur.instr? = some i) :
    s.zeroes ↔ i.mnemonic ∈ [Mnemonic.timReset, .delay, .start, .read] := by
  simp only [State.zeroes, hp, Cur.op_of_instr hi, true_and, reduceCtorEq, false_and, or_false]
  cases i.mnemonic <;> decide

/-- A tick zeroes the counter in R103's five actions, and counts in every other. -/
theorem TickEffect.cnt_eq {s t : State} (h : TickEffect s t) :
    (s.zeroes → t.cnt = 0) ∧ (¬ s.zeroes → t.cnt = s.nextCnt) := by
  have issue {i : Instr} (hp : s.phase = .issue) (hi : s.cur.instr? = some i) := State.zeroes_issue hp hi
  cases h with
  | cfgOut hp hi => simp [issue hp hi, Instr.mnemonic]
  | cfgIn hp hi => simp [issue hp hi, Instr.mnemonic]
  | write l hp hi => simp [issue hp hi, Instr.mnemonic]
  | sense hp hi => simp [issue hp hi, Instr.mnemonic]
  | timReset hp hi => simp [issue hp hi, Instr.mnemonic]
  | delayZero hp hi => simp [issue hp hi, Instr.mnemonic]
  | delayBegins n hp hi => simp [issue hp hi, Instr.mnemonic]
  | waitBegins l hp hi => simp [issue hp hi, Instr.mnemonic]
  | startBegins hp hi => obtain hi | hi := hi <;> simp [issue hp hi, Instr.mnemonic]
  | captureBegins hp hi => simp [issue hp hi, Instr.mnemonic]
  | waits n hn hlt =>
    rcases hn with ⟨hp, rfl⟩ | ⟨hp, rfl⟩ | ⟨hp, rfl⟩ | ⟨hp, rfl⟩ <;> simp [State.zeroes, hp, hlt]
  | watches hw => rcases hw with ⟨hp, hl⟩ | ⟨hp, hl⟩ | ⟨hp, hl⟩ <;> simp [State.zeroes, hp, hl]
  | _ => simp_all [State.zeroes]

/-- HOST's accesses leave CNT as it is, whether it makes them directly or by its program (40_timer.md R103). -/
theorem takeTurn_host_cnt {turn : Turn} {s t : State} (h : takeTurn turn s = .next t) (htick : ∀ e, turn ≠ .tick e)
    (hreset : turn ≠ .reset) : t.cnt = s.cnt := by
  obtain ⟨e, he, -⟩ | ⟨off, -, -, -, rfl⟩ | ⟨off, v, -, -, -, rfl⟩ | ⟨-, -, rfl⟩ | ⟨ops, -, -, rfl⟩ | ⟨off, ops, -, -, -, -, rfl⟩ |
    ⟨off, v, ops, -, -, -, -, rfl⟩ | ⟨hr, -⟩ := takeTurn_cases h
  · exact absurd he (htick e)
  · rfl
  · obtain ⟨-, -, hcnt, -⟩ := s.hostWrite_sameCommandFields off v
    exact hcnt
  · rfl
  · rw [pollRead_eq]; rfl
  · rfl
  · obtain ⟨-, -, hcnt, -⟩ := ({ s with program := ops } : State).hostWrite_sameCommandFields off v
    exact hcnt
  · exact absurd hr hreset

/-- Settles O22: by the effect of the tick, and what each kind of host access writes. -/
theorem counterZeroing : Obligations.CounterZeroing := by
  refine fun s t turn h => ⟨?_, ?_, ?_, ?_⟩
  · rintro e rfl
    exact (runCurrent_effect h).cnt_eq
  · rintro a rfl
    exact takeTurn_host_cnt h (by simp) (by simp)
  · rintro rfl
    exact takeTurn_host_cnt h (by simp) (by simp)
  · rintro rfl
    obtain rfl : s.applyReset = t := by simpa [takeTurn] using h
    rfl

/-! ### Runs in which the counter counts and nothing else happens -/

/-- The state after ticks at the levels `es` in which only the counter was written (40_timer.md R101). -/
def State.counted (s : State) (es : List Level) : State :=
  { s with
    cnt := (s.cnt + es.length) % s.params.cntRange
    env := es.getLastD s.env
    draws := s.draws + es.length }

theorem State.counted_nil {s : State} (h : s.cnt < s.params.cntRange) : s.counted [] = s := by
  simp [State.counted, Nat.mod_eq_of_lt h]

/-- One more tick that counts. -/
theorem State.counted_concat (s : State) (es : List Level) (e : Level) :
    s.counted (es ++ [e]) = ((s.counted es).draw (some e)).count := by
  simp [State.counted, State.count, State.nextCnt, State.draw, Nat.add_assoc]

/-- Below the top of its range the counter has not wrapped. -/
theorem State.counted_cnt_of_lt {s : State} {es : List Level} (h : s.cnt + es.length < s.params.cntRange) :
    (s.counted es).cnt = s.cnt + es.length := Nat.mod_eq_of_lt h

/-- A run of ticks takes its last tick last. -/
theorem after_ticks_concat (s : State) (es : List Level) (e : Level) :
    after (ticks (es ++ [e])) s = (after (ticks es) s).bind fun t => nextState? (runCurrent (t.draw (some e))) := by
  rw [ticks_append, after_append]
  exact congrArg _ (funext fun t => after_one (.tick (some e)) t)

/-- Where every tick of a run past ISSUE only counts, the run only counts. -/
theorem after_ticks_counted {s : State} {es : List Level} (hcnt : s.cnt < s.params.cntRange) (hp : s.phase ≠ .issue)
    (hcount : ∀ fs e t, fs ++ [e] <+: es → TickEffect ((s.counted fs).draw (some e)) t → t = ((s.counted fs).draw (some e)).count) :
    after (ticks es) s = some (s.counted es) := by
  induction es using List.reverseRecOn with
  | nil => rw [s.counted_nil hcnt, after_ticks_nil]
  | append_singleton es e ih =>
    have hrun := ih fun fs f t hfs => hcount fs f t (hfs.trans (List.prefix_append es [e]))
    have hp' : ((s.counted es).draw (some e)).phase ≠ .issue := hp
    rw [after_ticks_concat, hrun, Option.bind_some, runCurrent_arm _ hp',
      hcount es e _ (List.prefix_refl _) (sequencerTick_effect _ hp'), s.counted_concat, nextState?]

/-- In IDLE a run of ticks counts and does nothing else (40_timer.md R100). -/
theorem after_ticks_idle {s : State} (hp : s.phase = .idle) (hcnt : s.cnt < s.params.cntRange) (es : List Level) :
    after (ticks es) s = some (s.counted es) :=
  after_ticks_counted hcnt (by simp [hp]) fun _ _ _ _ ht => ht.eq_count_of_idle hp

/-- Settles O21: an idle run only counts. -/
theorem idleTickCounts : Obligations.IdleTickCounts :=
  fun _ es hp hcnt => after_ticks_idle hp hcnt es

/-- Settles O26: the read is of the counter k ticks on, and legal parameters give it fewer than 32 bits. -/
theorem intervalByCounter : Obligations.IntervalByCounter := by
  intro s es hp hlegal hcnt hlen
  have hcnt : s.cnt < s.params.cntRange := hcnt
  refine ⟨(s.counted es).hostRead 0x08, ?_, ?_⟩
  · rw [after_append, after_ticks_idle hp hcnt, Option.bind_some]
    exact after_memRead (s.counted es) (by decide) (by decide)
  · have hread : ((s.counted es).hostRead 0x08).rdata.toNat = (s.cnt + es.length) % s.params.cntRange :=
      Nat.mod_eq_of_lt ((Nat.mod_lt _ s.params.cntRange_pos).trans_le hlegal.cntRange_le)
    calc (((s.counted es).hostRead 0x08).rdata.toNat + s.params.cntRange - s.cnt) % s.params.cntRange
        = (s.cnt + es.length + (s.params.cntRange - s.cnt)) % s.params.cntRange := by
          rw [hread, Nat.add_sub_assoc hcnt.le, Nat.mod_add_mod]
      _ = (es.length + s.params.cntRange) % s.params.cntRange := by congr 1; omega
      _ = es.length := by rw [Nat.add_mod_right]; exact Nat.mod_eq_of_lt hlen

/-! ### Timed waits (40_timer.md R107) -/

theorem State.timedWait.not_issue {s : State} {n : Nat} (h : s.timedWait n) : s.phase ≠ .issue := by
  rcases h with ⟨hp, -⟩ | ⟨hp, -⟩ | ⟨hp, -⟩ | ⟨hp, -⟩ <;> simp [hp]

/-- While its bound is not reached, a tick of a timed wait only counts. -/
theorem TickEffect.eq_count_of_timedWait {s t : State} {n : Nat} (h : TickEffect s t) (hn : s.timedWait n) (hlt : s.nextCnt < n) :
    t = s.count := by
  have reached {m : Nat} (hm : s.timedWait m) (hle : m ≤ s.nextCnt) : t = s.count :=
    absurd (State.timedWait_unique hm hn ▸ hle) hlt.not_ge
  cases h with
  | delayEnds hp hle => exact reached (.inl ⟨hp, rfl⟩) hle
  | pinRises hp hle => exact reached (.inr (.inl ⟨hp, rfl⟩)) hle
  | startEnds hp hle => exact reached (.inr (.inr (.inl ⟨hp, rfl⟩))) hle
  | readReleases hp hle => exact reached (.inr (.inr (.inl ⟨hp, rfl⟩))) hle
  | samples hp hle => exact reached (.inr (.inr (.inr ⟨hp, rfl⟩))) hle
  | _ => simp_all [State.timedWait]

/-- The tick that reaches the bound ends the phase. -/
theorem TickEffect.phase_ne_of_timedWait {s t : State} {n : Nat} (h : TickEffect s t) (hn : s.timedWait n) (hle : n ≤ s.nextCnt) :
    t.phase ≠ s.phase := by
  cases h with
  | waits m hm hlt => exact absurd hlt (State.timedWait_unique hm hn ▸ hle.not_gt)
  | watches hw => rcases hw with ⟨hp, -⟩ | ⟨hp, -⟩ | ⟨hp, -⟩ <;> simp [State.timedWait, hp] at hn
  | _ => simp_all [State.timedWait]

/-- A tick of a wait that starts at CNT = 0 counts on from the ticks before it. -/
theorem State.nextCnt_counted {s : State} {fs : List Level} {e : Level} (h0 : s.cnt = 0)
    (hlen : fs.length + 1 < s.params.cntRange) : ((s.counted fs).draw (some e)).nextCnt = fs.length + 1 := by
  have hcnt : ((s.counted fs).draw (some e)).cnt = fs.length := by
    rw [State.draw_cnt, State.counted_cnt_of_lt (by omega), h0, Nat.zero_add]
  rw [State.nextCnt_of_lt (by rwa [hcnt]), hcnt]

/-- A timed wait that starts at CNT = 0 only counts until its bound. -/
theorem after_ticks_timedWait {s : State} {n : Nat} {es : List Level} (hn : s.timedWait n) (h0 : s.cnt = 0)
    (hrange : n < s.params.cntRange) (hlen : es.length < n) : after (ticks es) s = some (s.counted es) := by
  refine after_ticks_counted (h0 ▸ s.params.cntRange_pos) hn.not_issue fun fs e t hfs ht => ?_
  have hfs' : fs.length + 1 ≤ es.length := by simpa using hfs.length_le
  refine ht.eq_count_of_timedWait hn ?_
  rw [State.nextCnt_counted h0 (hfs'.trans_lt (hlen.trans hrange))]
  exact hfs'.trans_lt hlen

/-- The tick at which a timed wait that starts at CNT = 0 reaches its bound. -/
theorem after_ticks_timedWait_ends {s : State} {n : Nat} {es : List Level} (hn : s.timedWait n) (h0 : s.cnt = 0)
    (hrange : n < s.params.cntRange) (hpos : 1 ≤ n) (hlen : es.length = n) :
    ∃ d t, d.count = s.counted es ∧ d.timedWait n ∧ d.nextCnt = n ∧ d.phase = s.phase ∧ TickEffect d t ∧
      after (ticks es) s = some t := by
  obtain rfl | ⟨fs, e, rfl⟩ := List.eq_nil_or_concat' es
  · simp at hlen; omega
  · have hlen' : fs.length + 1 = n := by simpa using hlen
    have hp : ((s.counted fs).draw (some e)).phase ≠ .issue := hn.not_issue
    refine ⟨(s.counted fs).draw (some e), _, (s.counted_concat fs e).symm, hn, ?_, rfl, sequencerTick_effect _ hp, ?_⟩
    · rw [State.nextCnt_counted h0 (hlen' ▸ hrange), hlen']
    · rw [after_ticks_concat, after_ticks_timedWait hn h0 hrange (by omega), Option.bind_some, runCurrent_arm _ hp, nextState?]

/-- Settles O25: the wait only counts until its bound, and the tick that reaches the bound ends its phase. -/
theorem timedWaitLaw : Obligations.TimedWaitLaw := by
  intro s n es hlegal h0 hn hpos hle
  have hrange : n < s.params.cntRange := Nat.lt_of_le_pred (Params.cntRange_pos _) hle
  obtain hlt | heq | hgt := Nat.lt_trichotomy es.length n
  · refine ⟨s.counted es, after_ticks_timedWait hn h0 hrange hlt, fun _ => ⟨rfl, ?_⟩, fun heq => absurd heq hlt.ne⟩
    rw [State.counted_cnt_of_lt (by omega), h0, Nat.zero_add]
  · obtain ⟨d, t, -, hd, hnext, hp, ht, hrun⟩ := after_ticks_timedWait_ends hn h0 hrange hpos heq
    exact ⟨t, hrun, fun hlt => absurd heq hlt.ne, fun _ => hp ▸ ht.phase_ne_of_timedWait hd hnext.ge⟩
  · obtain ⟨t, hrun, -⟩ := after_ticks_total s es hn.not_issue
    exact ⟨t, hrun, fun hlt => absurd hgt hlt.not_gt, fun heq => absurd heq hgt.ne'⟩

/-! ### TIM_RESET (40_timer.md R104) -/

/-- A run of ticks from ISSUE takes the issue actions of the command in CUR first. -/
theorem after_ticks_issue {s t : State} {i : Instr} {e : Level} (es : List Level) (hp : s.phase = .issue)
    (hi : s.cur.instr? = some i) (ht : exec i (s.draw (some e)) = .next t) :
    after (ticks (e :: es)) s = after (ticks es) t := by
  rw [after_ticks_cons, runCurrent_issue (s := s.draw (some e)) hp hi, ht]
  rfl

/-- Settles O23: the issue tick zeroes the counter and completes, and idle ticks count from there. -/
theorem timResetEffect : Obligations.TimResetEffect := by
  refine ⟨acceptsRow .timReset, by decide, fun s hp => exec_issue .timReset s hp, fun s e es hp hi => ?_⟩
  refine ⟨(issueTimReset (s.draw (some e))).counted es, ?_, ?_⟩
  · rw [after_ticks_issue es hp hi (exec_issue .timReset _ hp)]
    exact after_ticks_idle rfl (Params.cntRange_pos _) es
  · exact congrArg (· % _) (Nat.zero_add es.length)

/-! ### DELAY (40_timer.md R105) -/

theorem encode_delay (n : Nat) : encode (.delay n) = (BitVec.ofNat 32 n <<< 16) ||| 0x6 := by
  simp [encode, Instr.mnemonic, Mnemonic.matchWord, Instr.levelOperand, Instr.countOperand, BitVec.or_comm]

theorem exec_delay_issue (n : Nat) {s : State} (hp : s.phase = .issue) : exec (.delay n) s = .next (issueDelay n s) :=
  exec_issue (.delay n) s hp

/-- In DELAY_WAIT, DELAY #n waits for n. -/
theorem exec_delay_wait (n : Nat) {s : State} (hp : s.phase = .delayWait) : exec (.delay n) s = .next (delayWaitArm n s) := by
  simp [exec, execDelay, delayTick, hp]

/-- The DELAY_WAIT arm in one record update (40_timer.md R105). -/
theorem delayWaitArm_eq (n : Nat) {s : State} (hp : s.phase = .delayWait) :
    delayWaitArm n s = { s with
      cnt := s.nextCnt
      busy := if n ≤ s.nextCnt then false else s.busy
      phase := if n ≤ s.nextCnt then .idle else .delayWait } := by
  unfold delayWaitArm
  split
  · rfl
  · rw [← hp]
    rfl

/-- The count in CUR is a 16-bit number (30_encoding.md R72). -/
theorem Cur.count_le_of_delay {c : Cur} {n : Nat} (hi : c.instr? = some (.delay n)) : n ≤ 65535 := by
  have hlt := c.us.isLt
  rw [← Cur.count_of_delay hi, Cur.count]
  omega

/-- The tick that reaches DELAY's count completes it. -/
theorem TickEffect.eq_complete_of_delayWait {s t : State} (h : TickEffect s t) (hp : s.phase = .delayWait)
    (hle : s.cur.count ≤ s.nextCnt) : t = s.count.complete := by
  cases h with
  | waits n hn hlt => exact absurd hlt (State.timedWait_unique hn (.inl ⟨hp, rfl⟩) ▸ hle.not_gt)
  | _ => simp_all

/-- DELAY_WAIT from CNT = 0 counts through its bound and completes. -/
theorem after_ticks_delayWait_ends {s : State} {es : List Level} (hp : s.phase = .delayWait) (h0 : s.cnt = 0)
    (hrange : s.cur.count < s.params.cntRange) (hpos : 1 ≤ s.cur.count) (hlen : es.length = s.cur.count) :
    after (ticks es) s = some (s.counted es).complete := by
  obtain ⟨d, t, hcounted, hd, hnext, hdp, ht, hrun⟩ := after_ticks_timedWait_ends (.inl ⟨hp, rfl⟩) h0 hrange hpos hlen
  have hdp' : d.phase = .delayWait := hdp.trans hp
  have hcount : d.cur.count = s.cur.count := State.timedWait_unique (.inl ⟨hdp', rfl⟩) hd
  rw [hrun, ht.eq_complete_of_delayWait hdp' (by omega), hcounted]

/-- The state in which DELAY #n, with n > 0, begins its wait (40_timer.md R105). -/
def State.beginDelay (s : State) : State := { s with cnt := 0, phase := .delayWait }

theorem issueDelay_pos {n : Nat} (hpos : 1 ≤ n) (s : State) : issueDelay n s = s.beginDelay :=
  if_neg (by omega)

/-- The state in which DELAY #n has waited through the levels after its issue tick and completed. -/
theorem State.beginDelay_counted_complete {s : State} {e : Level} {es : List Level} (hlen : es.length < s.params.cntRange) :
    ((s.draw (some e)).beginDelay.counted es).complete =
      { s with cnt := es.length, busy := false, phase := .idle, env := (e :: es).getLastD s.env,
               draws := s.draws + (es.length + 1) } := by
  have hcnt : ((s.draw (some e)).beginDelay.counted es).cnt = es.length :=
    (State.counted_cnt_of_lt (by simpa [beginDelay] using hlen)).trans (Nat.zero_add _)
  ext1
  case cnt => exact hcnt
  case env => rw [List.getLastD_cons]; rfl
  case draws => simp [State.counted, beginDelay, State.complete]; omega
  all_goals rfl

section
variable {s : State} {n : Nat} {e : Level} {es : List Level} (hp : s.phase = .issue) (hi : s.cur.instr? = some (.delay n))
include hp hi

/-- DELAY #n's wait begins in its issue tick, where n > 0. -/
theorem after_ticks_beginDelay (hpos : 1 ≤ n) : after (ticks (e :: es)) s = after (ticks es) (s.draw (some e)).beginDelay := by
  rw [after_ticks_issue es hp hi (exec_delay_issue n hp), issueDelay_pos hpos]

/-- DELAY #n from its issue tick only counts until its wait reaches n. -/
theorem after_ticks_delay_waiting (hrange : n < s.params.cntRange) (hlen : (e :: es).length ≤ n) :
    after (ticks (e :: es)) s = some ((s.draw (some e)).beginDelay.counted es) := by
  have hlen' : es.length < n := by simpa using hlen
  rw [after_ticks_beginDelay hp hi (by omega)]
  exact after_ticks_timedWait (.inl ⟨rfl, (Cur.count_of_delay hi).symm⟩) rfl hrange hlen'

/-- DELAY #n completes in its tick n + 1 with CNT = n, and changes nothing but CNT, BUSY and PHASE (40_timer.md R105). -/
theorem after_ticks_delay (hrange : n < s.params.cntRange) (hlen : es.length = n + 1) :
    after (ticks es) s = some { s with
      cnt := n, busy := false, phase := .idle, env := es.getLastD s.env, draws := s.draws + (n + 1) } := by
  obtain ⟨e, es, rfl⟩ := List.exists_cons_of_length_eq_add_one hlen
  obtain rfl : es.length = n := by simpa using hlen
  rw [← State.beginDelay_counted_complete hrange]
  obtain rfl | hpos : es = [] ∨ 1 ≤ es.length := by cases es <;> simp
  · exact after_ticks_issue [] hp hi (exec_delay_issue 0 hp)
  · have hcount : s.cur.count = es.length := Cur.count_of_delay hi
    rw [after_ticks_beginDelay hp hi hpos]
    exact after_ticks_delayWait_ends rfl rfl (hcount ▸ hrange) (hcount ▸ hpos) hcount.symm
end

/-- Settles O24: DELAY #0 completes at issue; a longer one begins a timed wait at CNT = 0, which counts through n. -/
theorem delayEffect : Obligations.DelayEffect := by
  refine ⟨acceptsRow .delay, fun n _ => encode_delay n, fun s n hp => ?_, fun s n hp => ?_, fun s n es hp hb hi hlegal => ?_⟩
  · rw [exec_delay_issue n hp]
    by_cases hn : n = 0 <;> simp [issueDelay, hn, State.complete]
  · rw [exec_delay_wait n hp, delayWaitArm_eq n hp]
    rfl
  · have hrange : n < s.params.cntRange := (Cur.count_le_of_delay hi).trans_lt hlegal.count_lt
    refine ⟨fun hlen => ?_, fun hlen => after_ticks_delay hp hi hrange hlen⟩
    cases es with
    | nil => exact ⟨s, rfl, hb⟩
    | cons e es => exact ⟨_, after_ticks_delay_waiting hp hi hrange hlen, hb⟩

end Sys2Proof.Machine
end

section
/-! SUPPORT. The pin multiplexer's statements: the line, CFG_OUT, CFG_IN, WRITE and SENSE, and what changes MODE and OLAT
(spec/41_pin_mux.md). -/

namespace Sys2Proof.Machine

/-! ### The line (41_pin_mux.md R120, R121, R128) -/

namespace State
variable {s : State}

theorem lineWith_output (h : s.mode = .output) (e : Level) : s.lineWith e = s.olat :=
  line_output (s := { s with env := e }) h

theorem lineWith_input (h : s.mode = .input) (e : Level) : s.lineWith e = e :=
  line_input (s := { s with env := e }) h

theorem lineWith_eq_ite (s : State) (e : Level) : s.lineWith e = if s.mode = .output then s.olat else e := by
  cases hm : s.mode
  · exact lineWith_input hm e
  · exact lineWith_output hm e

theorem padOe_eq_true : s.padOe = true ↔ s.mode = .output := by
  cases hm : s.mode <;> simp [padOe, hm]

theorem padOe_eq_false : s.padOe = false ↔ s.mode = .input := by
  cases hm : s.mode <;> simp [padOe, hm]

end State

/-- Settles O32: the pad is driven in OUT mode, where the line is the latch, and in no other mode. -/
theorem lineResolution : Obligations.LineResolution := fun _ e =>
  ⟨fun h => State.lineWith_output (State.padOe_eq_true.1 h) e, fun h => State.lineWith_input (State.padOe_eq_false.1 h) e,
    State.padOe_eq_true, rfl⟩

/-! ### The commands (41_pin_mux.md R123-R126) -/

/-- Settles O27: the issue tick sets MODE = OUT, in which the line is the latch. -/
theorem cfgOutEffect : Obligations.CfgOutEffect := by
  refine ⟨acceptsRow .cfgOut, by decide, fun s hp => ⟨issueCfgOut s, exec_issue .cfgOut s hp, rfl, ?_, ?_⟩⟩
  · exact State.lineWith_output rfl
  · exact (State.statusWord_mode _).trans (decide_eq_true rfl)

/-- Settles O28: the issue tick sets MODE = IN, in which the line is ENV's level. -/
theorem cfgInEffect : Obligations.CfgInEffect :=
  ⟨acceptsRow .cfgIn, by decide, fun s hp => ⟨issueCfgIn s, exec_issue .cfgIn s hp, rfl, State.lineWith_input rfl⟩⟩

/-- Settles O29: the issue tick sets the latch and keeps MODE, which decides whether the line shows the latch. -/
theorem writeEffect : Obligations.WriteEffect := by
  refine ⟨acceptsRow .write, by decide, by decide, fun s l hp => ⟨issueWrite l s, exec_issue (.write l) s hp, rfl, ?_, ?_, ?_⟩⟩
  · exact fun hm => State.lineWith_output hm
  · exact fun hm => State.lineWith_input hm
  · exact State.statusWord_olat _

/-- Settles O30: the issue tick copies the line to LEVEL. -/
theorem senseEffect : Obligations.SenseEffect := by
  refine ⟨acceptsRow .sense, by decide, fun s e hp hi => ?_⟩
  rw [← s.lineWith_eq_ite e]
  refine ⟨exec_issue .sense _ hp, issueSense (s.draw (some e)), ?_, ?_⟩
  · exact after_ticks_issue [] hp hi (exec_issue .sense _ hp)
  · exact State.statusWord_level _

/-! ### What changes MODE and OLAT (41_pin_mux.md R129) -/

/-- The commands that drive the start signal. -/
def startsSignal (i : Instr) : Prop := i = .start ∨ i = .read

/-- The commands that may change MODE. -/
def movesMode (i : Instr) : Prop := i = .cfgOut ∨ i = .cfgIn ∨ i = .start ∨ i = .read

/-- The commands that may change OLAT. -/
def movesLatch (i : Instr) : Prop := (∃ l, i = .write l) ∨ i = .start ∨ i = .read

theorem movesMode_of_startsSignal (i : Instr) (h : startsSignal i) : movesMode i := .inr (.inr h)

theorem movesLatch_of_startsSignal (i : Instr) (h : startsSignal i) : movesLatch i := .inr h

/-- A command of the kind `p` is in progress. -/
def State.running (s : State) (p : Instr → Prop) : Prop := s.phase ≠ .idle ∧ ∃ i, s.cur.instr? = some i ∧ p i

section
variable {s : State} {p q : Instr → Prop}

theorem State.running.mono (h : s.running p) (hpq : ∀ i, p i → q i) : s.running q := by
  obtain ⟨h0, i, hi, hpi⟩ := h
  exact ⟨h0, i, hi, hpq i hpi⟩

theorem State.running_of_issue {i : Instr} (hp : s.phase = .issue) (hi : s.cur.instr? = some i) (h : p i) : s.running p :=
  ⟨by simp [hp], i, hi, h⟩

theorem State.running_startsSignal_of_issue (hp : s.phase = .issue)
    (hi : s.cur.instr? = some .start ∨ s.cur.instr? = some .read) : s.running startsSignal := by
  obtain hi | hi := hi
  · exact State.running_of_issue hp hi (.inl rfl)
  · exact State.running_of_issue hp hi (.inr rfl)

/-- START_LOW and START_HIGH are phases of START and READ alone (10_state.md R31). -/
theorem State.Inv.running_startsSignal (h : s.Inv) (hp : s.phase = .startLow ∨ s.phase = .startHigh) :
    s.running startsSignal := by
  have h0 : s.phase ≠ .idle := fun h0 => by simp [h0] at hp
  obtain ⟨i, -, hi, hm⟩ := h.current h0
  refine ⟨h0, i, hi, ?_⟩
  obtain hp | hp := hp
  · exact startLow_mem_phasesOf.1 (hp ▸ hm)
  · exact startHigh_mem_phasesOf.1 (hp ▸ hm)

end

namespace TickEffect
section
variable {s t : State} (ht : TickEffect s t) (h : s.Inv)
include ht h

/-- A tick changes MODE in the issue tick of CFG_OUT or CFG_IN, or at either end of the start signal. -/
theorem mode_cases : t.mode = s.mode ∨ s.running movesMode := by
  have signal (hs : s.running startsSignal) : s.running movesMode := hs.mono movesMode_of_startsSignal
  cases ht with
  | cfgOut hp hi => exact .inr (State.running_of_issue hp hi (.inl rfl))
  | cfgIn hp hi => exact .inr (State.running_of_issue hp hi (.inr (.inl rfl)))
  | startBegins hp hi => exact .inr (signal (State.running_startsSignal_of_issue hp hi))
  | startEnds hp => exact .inr (signal (h.running_startsSignal (.inr hp)))
  | readReleases hp => exact .inr (signal (h.running_startsSignal (.inr hp)))
  | bitEnds => exact .inl (State.advanceBit_mode _)
  | _ => exact .inl rfl

/-- A tick changes OLAT in the issue tick of WRITE, or at either end of the low part of the start signal. -/
theorem olat_cases : t.olat = s.olat ∨ s.running movesLatch := by
  have signal (hs : s.running startsSignal) : s.running movesLatch := hs.mono movesLatch_of_startsSignal
  cases ht with
  | write l hp hi => exact .inr (State.running_of_issue hp hi (.inl ⟨l, rfl⟩))
  | startBegins hp hi => exact .inr (signal (State.running_startsSignal_of_issue hp hi))
  | pinRises hp => exact .inr (signal (h.running_startsSignal (.inl hp)))
  | bitEnds => exact .inl (State.advanceBit_olat _)
  | _ => exact .inl rfl

end
end TickEffect

namespace State.sameBlock
section
variable {s t : State} (h : s.sameBlock t)
include h

theorem mode_eq : s.mode = t.mode := by
  obtain ⟨⟨hmode, -⟩, -⟩ := h
  exact hmode

theorem olat_eq : s.olat = t.olat := by
  obtain ⟨⟨-, holat, -⟩, -⟩ := h
  exact holat

theorem running {p : Instr → Prop} (hs : s.running p) : t.running p := by
  rwa [State.running, h.phase_eq, h.cur_eq] at hs

end
end State.sameBlock

/-- A step that is no tick and no Reset keeps MODE and OLAT. -/
theorem StepEffect.pin_cases {s t : State} (hs : StepEffect s t) :
    (t.mode = s.mode ∧ t.olat = s.olat) ∨ (∃ rest, s.turns = .reset :: rest) ∨
      (s.ticking ∧ ∃ d : State, d.sameBlock s ∧ TickEffect d t) := by
  cases hs with
  | tick d htick hd ht => exact .inr (.inr ⟨htick, d, hd, ht⟩)
  | reset hr => exact .inr (.inl hr)
  | none ht => exact .inl ⟨ht.mode_eq, ht.olat_eq⟩
  | clears _ _ _ ht => exact .inl ⟨ht.mode_eq, ht.olat_eq⟩
  | raisesBusy _ _ _ ht => exact .inl ⟨ht.mode_eq.trans (s.cmdError_mode _), ht.olat_eq.trans (s.cmdError_olat _)⟩
  | raisesIllegal _ _ _ _ _ ht => exact .inl ⟨ht.mode_eq.trans (s.cmdError_mode _), ht.olat_eq.trans (s.cmdError_olat _)⟩
  | accepts _ _ _ _ _ ht => exact .inl ⟨ht.mode_eq, ht.olat_eq⟩

theorem step_reset {s : State} {rest : List Turn} (h : s.turns = .reset :: rest) :
    step s = .next ({ s with turns := rest } : State).applyReset := by
  simp only [step, h, takeTurn]

/-- A step that completes a READ, or resets SWSI during one, ends in IN mode. -/
theorem mode_of_read_completes {s t : State} (hinv : s.Inv) (h : step s = .next t) (hb : s.busy = true)
    (hi : s.cur.instr? = some .read) (htb : t.busy = false) : t.mode = .input := by
  have hs := step_effect h
  have ht : t.Inv := hinv.of_step hs
  obtain hcur | ⟨rest, hr⟩ | ⟨w, i, -, hidle, -⟩ := hs.cur_cases
  · have hread : t.cur.isRead = true := Cur.isRead_iff.2 (hcur ▸ hi)
    obtain ⟨-, hmode, -⟩ := ht.read_completed (ht.busy_iff_idle.1 htb) hread
    exact hmode
  · obtain rfl : _ = t := Host.Outcome.next.inj ((step_reset hr).symm.trans h)
    rfl
  · simp [hb] at hidle

/-- Settles O31: a step changes the pin's state in a tick or by Reset, and the tick's command by what the tick can do; a READ that
completes meets the invariant's `read_completed`. -/
theorem pinWriters : Obligations.PinWriters := by
  intro s t hinv h
  refine ⟨fun hne => ?_, fun hne => ?_, mode_of_read_completes hinv h⟩
  all_goals obtain ⟨hmode, holat⟩ | hr | ⟨htick, d, hd, ht⟩ := (step_effect h).pin_cases
  · exact absurd hmode hne
  · exact .inl hr
  · exact .inr ⟨htick, hd.running ((ht.mode_cases (hinv.of_sameBlock hd)).resolve_left (hd.mode_eq ▸ hne))⟩
  · exact absurd holat hne
  · exact .inl hr
  · exact .inr ⟨htick, hd.running ((ht.olat_cases (hinv.of_sameBlock hd)).resolve_left (hd.olat_eq ▸ hne))⟩

end Sys2Proof.Machine
end

section
/-! SUPPORT. The start-signal generator's statements: START's ticks, the start waveform and the state after START
(spec/42_start_signal.md). -/

namespace Sys2Proof

/-- The high part of the start signal ends before CNT wraps (00_scope.md R8). -/
theorem Params.Legal.startHigh_lt {p : Params} (h : p.Legal) : Config.startHighUs < p.cntRange :=
  lt_trans (by decide) h.count_lt

end Sys2Proof

namespace Sys2Proof.Machine

/-! ### The ends of the two drives (42_start_signal.md R141, R142) -/

namespace State

/-- The writes of the tick that ends START_LOW: the line rises and the counter starts again (42_start_signal.md R141). -/
def raisePin (s : State) : State := { s with olat := true, cnt := 0, phase := .startHigh }

/-- The writes, beside CNT, of the tick that ends START_HIGH: the line is released, and READ begins its bit loop where START completes
(42_start_signal.md R142). -/
def releasePin (s : State) : State :=
  if s.cur.isRead then ({ s with mode := .input } : State).beginCapture else ({ s with mode := .input } : State).complete

section
variable {s : State}

theorem releasePin_of_read (h : s.cur.isRead = true) : s.releasePin = ({ s with mode := .input } : State).beginCapture := if_pos h

theorem releasePin_of_not_read (h : s.cur.isRead = false) : s.releasePin = ({ s with mode := .input } : State).complete := by
  simp [releasePin, h]

theorem releasePin_of_start (hi : s.cur.instr? = some .start) : s.releasePin = ({ s with mode := .input } : State).complete :=
  releasePin_of_not_read (Cur.not_isRead hi (by simp))

end
end State

theorem startLowArm_eq (s : State) : startLowArm s = if s.params.startLowUs ≤ s.nextCnt then s.raisePin else s.count := rfl

theorem startHighArm_eq (s : State) : startHighArm s = if Config.startHighUs ≤ s.nextCnt then s.count.releasePin else s.count := rfl

/-! ### START's ticks (42_start_signal.md R140-R142) -/

section
variable {s : State}

theorem exec_start_low (hp : s.phase = .startLow) : exec .start s = .next (startLowArm s) := by
  simp [exec, execStart, sequencerTick, hp]

theorem exec_start_high (hp : s.phase = .startHigh) : exec .start s = .next (startHighArm s) := by
  simp [exec, execStart, sequencerTick, hp]

end

/-- Settles O33: acceptance is the row's, the issue tick begins the signal, and each later tick is the arm of its phase. -/
theorem startTicks : Obligations.StartTicks := by
  refine ⟨⟨acceptsRow .start, by decide⟩, fun s hp => exec_issue .start s hp, fun s hp => exec_start_low hp, fun s hp hop => ?_⟩
  have hread : s.count.cur.isRead = false := by simp [Cur.isRead, hop]
  rw [exec_start_high hp, startHighArm_eq, State.releasePin_of_not_read hread]
  rfl

/-! ### The two drives as timed waits (40_timer.md R107, 42_start_signal.md R141, R142) -/

namespace TickEffect
section
variable {s t : State} (ht : TickEffect s t)
include ht

theorem eq_raisePin (hp : s.phase = .startLow) (hle : s.params.startLowUs ≤ s.nextCnt) : t = s.raisePin := by
  cases ht with
  | pinRises => rfl
  | waits n hn hlt => exact absurd hlt (State.timedWait_unique hn (.inr (.inl ⟨hp, rfl⟩)) ▸ hle.not_gt)
  | _ => simp_all

theorem eq_releasePin (hp : s.phase = .startHigh) (hle : Config.startHighUs ≤ s.nextCnt) : t = s.count.releasePin := by
  cases ht with
  | startEnds _ _ hr => exact (State.releasePin_of_not_read (s := s.count) hr).symm
  | readReleases _ _ hr => exact (State.releasePin_of_read (s := s.count) hr).symm
  | waits n hn hlt => exact absurd hlt (State.timedWait_unique hn (.inr (.inr (.inl ⟨hp, rfl⟩))) ▸ hle.not_gt)
  | _ => simp_all

end
end TickEffect

section
variable {s : State} {es : List Level} (hlegal : s.params.Legal) (h0 : s.cnt = 0)
include hlegal h0

/-- START_LOW from CNT = 0 counts through T_START_LOW_US and raises the line. -/
theorem after_ticks_startLow_ends (hp : s.phase = .startLow) (hlen : es.length = s.params.startLowUs) :
    after (ticks es) s = some (s.counted es).raisePin := by
  have hpos : 1 ≤ s.params.startLowUs := le_trans (by norm_num) hlegal.startLow_ge
  obtain ⟨d, t, hcounted, hd, hnext, hdp, ht, hrun⟩ :=
    after_ticks_timedWait_ends (.inr (.inl ⟨hp, rfl⟩)) h0 hlegal.startLow_lt hpos hlen
  have hdp' : d.phase = .startLow := hdp.trans hp
  have hbound : d.params.startLowUs = s.params.startLowUs := State.timedWait_unique (.inr (.inl ⟨hdp', rfl⟩)) hd
  rw [hrun, ht.eq_raisePin hdp' (by omega), ← hcounted]
  rfl

/-- START_HIGH from CNT = 0 counts through T_START_HIGH_US and releases the line. -/
theorem after_ticks_startHigh_ends (hp : s.phase = .startHigh) (hlen : es.length = Config.startHighUs) :
    after (ticks es) s = some (s.counted es).releasePin := by
  obtain ⟨d, t, hcounted, -, hnext, hdp, ht, hrun⟩ :=
    after_ticks_timedWait_ends (.inr (.inr (.inl ⟨hp, rfl⟩))) h0 hlegal.startHigh_lt (by decide) hlen
  rw [hrun, ht.eq_releasePin (hdp.trans hp) hnext.ge, hcounted]

end

/-- The last level of two runs of ticks is the second's, and the first's where the second has none. -/
theorem getLastD_append (es fs : List Level) (d : Level) : (es ++ fs).getLastD d = fs.getLastD (es.getLastD d) := by
  simp only [List.getLastD_eq_getLast?, List.getLast?_append, Option.getD_or]

/-! ### The signal from the issue tick (42_start_signal.md R143) -/

namespace State

/-- `s` after ticks at the levels `es` that leave the line driven low, the counter at `c`. -/
def signalLow (s : State) (es : List Level) (c : Nat) : State :=
  { s with mode := .output, olat := false, cnt := c, phase := .startLow, env := es.getLastD s.env, draws := s.draws + es.length }

/-- `s` after ticks at the levels `es` that leave the line driven high, the counter at `c`. -/
def signalHigh (s : State) (es : List Level) (c : Nat) : State :=
  { s with mode := .output, olat := true, cnt := c, phase := .startHigh, env := es.getLastD s.env, draws := s.draws + es.length }

/-- The low drive, tick by tick from the issue tick. -/
theorem beginStart_counted (s : State) (e : Level) {es : List Level} (hlen : es.length < s.params.cntRange) :
    (s.draw (some e)).beginStart.counted es = s.signalLow (e :: es) es.length := by
  ext1
  case cnt => exact (counted_cnt_of_lt (by simpa using hlen)).trans (Nat.zero_add _)
  case env => rw [signalLow, List.getLastD_cons]; rfl
  case draws => simp [counted, signalLow]; omega
  all_goals rfl

/-- The high drive, tick by tick from the rise. -/
theorem raisePin_counted (s : State) (es : List Level) (c : Nat) {fs : List Level} (hlen : fs.length < s.params.cntRange) :
    (s.signalLow es c).raisePin.counted fs = s.signalHigh (es ++ fs) fs.length := by
  ext1
  case cnt => exact (counted_cnt_of_lt (by simpa [raisePin, signalLow] using hlen)).trans (Nat.zero_add _)
  case env => exact (getLastD_append es fs s.env).symm
  case draws => simp [counted, raisePin, signalLow, signalHigh]; omega
  all_goals rfl

end State

/-- The levels of a start signal: that of the issue tick, those of the low drive, and the rest. -/
theorem exists_signal_levels {n : Nat} {es : List Level} (h : n + 1 ≤ es.length) :
    ∃ e fs gs, es = e :: (fs ++ gs) ∧ fs.length = n ∧ es.length = n + 1 + gs.length := by
  cases es with
  | nil => simp at h
  | cons e es =>
    have hle : n ≤ es.length := Nat.le_of_succ_le_succ h
    refine ⟨e, es.take n, es.drop n, by rw [List.take_append_drop], List.length_take_of_le hle, ?_⟩
    rw [List.length_cons, List.length_drop]
    omega

section
variable {s : State} {es : List Level} (hlegal : s.params.Legal) (hp : s.phase = .issue)
  (hi : s.cur.instr? = some .start ∨ s.cur.instr? = some .read)
include hp hi

/-- START and READ share their issue actions (42_start_signal.md R140, 43_edge_sampler.md R167). -/
theorem after_ticks_beginStart (e : Level) (es : List Level) :
    after (ticks (e :: es)) s = after (ticks es) (s.draw (some e)).beginStart := by
  obtain hi | hi := hi
  · exact after_ticks_issue es hp hi (exec_issue .start _ hp)
  · exact after_ticks_issue es hp hi (exec_issue .read _ hp)

include hlegal

/-- The line is low in the T_START_LOW_US ticks after the issue tick. -/
theorem after_ticks_signalLow (hpos : 1 ≤ es.length) (hlen : es.length ≤ s.params.startLowUs) :
    after (ticks es) s = some (s.signalLow es (es.length - 1)) := by
  obtain ⟨e, es, rfl⟩ := List.exists_cons_of_length_pos hpos
  have hlen' : es.length < s.params.startLowUs := hlen
  rw [after_ticks_beginStart hp hi,
    after_ticks_timedWait (s := (s.draw (some e)).beginStart) (.inr (.inl ⟨rfl, rfl⟩)) rfl hlegal.startLow_lt hlen',
    s.beginStart_counted e (hlen'.trans hlegal.startLow_lt)]
  rfl

/-- The tick that ends the low drive. -/
theorem after_ticks_signal_rises (e : Level) {fs : List Level} (gs : List Level) (hlen : fs.length = s.params.startLowUs) :
    after (ticks (e :: (fs ++ gs))) s = after (ticks gs) (s.signalLow (e :: fs) fs.length).raisePin := by
  rw [after_ticks_beginStart hp hi, ticks_append, after_append,
    after_ticks_startLow_ends (s := (s.draw (some e)).beginStart) hlegal rfl rfl hlen, Option.bind_some,
    s.beginStart_counted e (hlen ▸ hlegal.startLow_lt)]

/-- The line is high in the next T_START_HIGH_US ticks. -/
theorem after_ticks_signalHigh (hle : s.params.startLowUs + 1 ≤ es.length)
    (hlen : es.length ≤ s.params.startLowUs + Config.startHighUs) :
    after (ticks es) s = some (s.signalHigh es (es.length - (s.params.startLowUs + 1))) := by
  obtain ⟨e, fs, gs, rfl, hfs, hes⟩ := exists_signal_levels hle
  have hgs : gs.length < Config.startHighUs := by omega
  have hcnt : (e :: (fs ++ gs)).length - (s.params.startLowUs + 1) = gs.length := by omega
  rw [after_ticks_signal_rises hlegal hp hi e gs hfs,
    after_ticks_timedWait (s := (s.signalLow (e :: fs) fs.length).raisePin) (.inr (.inr (.inl ⟨rfl, rfl⟩))) rfl
      hlegal.startHigh_lt hgs,
    s.raisePin_counted _ _ (hgs.trans hlegal.startHigh_lt), hcnt]
  rfl

/-- The whole start signal, through its last tick S (42_start_signal.md R143). -/
theorem after_ticks_startSignal (hlen : es.length = s.params.startLowUs + 31) :
    after (ticks es) s = some (s.signalHigh es 30).releasePin := by
  obtain ⟨e, fs, gs, rfl, hfs, hes⟩ := exists_signal_levels (n := s.params.startLowUs) (es := es) (by omega)
  have hgs : gs.length = Config.startHighUs := by rw [Config.startHighUs]; omega
  rw [after_ticks_signal_rises hlegal hp hi e gs hfs,
    after_ticks_startHigh_ends (s := (s.signalLow (e :: fs) fs.length).raisePin) hlegal rfl rfl hgs,
    s.raisePin_counted _ _ (hgs ▸ hlegal.startHigh_lt), hgs]
  rfl

end

/-! ### The line after the signal (42_start_signal.md R143) -/

/-- The line is released, with no command in progress or in the bit loop. -/
def State.released (s : State) : Prop := s.mode = .input ∧ (s.phase = .idle ∨ s.phase.inBitLoop = true)

theorem State.releasePin_released (s : State) : s.releasePin.released := by
  cases hr : s.cur.isRead
  · rw [releasePin_of_not_read hr]; exact ⟨rfl, .inl rfl⟩
  · rw [releasePin_of_read hr]; exact ⟨rfl, .inr rfl⟩

theorem State.released.not_issue {s : State} (h : s.released) : s.phase ≠ .issue := by
  intro hp
  obtain ⟨-, hp' | hp'⟩ := h <;> simp [hp, Phase.inBitLoop] at hp'

/-- No tick of IDLE or of the bit loop drives the line. -/
theorem TickEffect.released {s t : State} (ht : TickEffect s t) (h : s.released) : t.released := by
  obtain ⟨hm, hp⟩ := h
  cases ht with
  | idles => exact ⟨hm, hp⟩
  | waits => exact ⟨hm, hp⟩
  | watches => exact ⟨hm, hp⟩
  | lineRises => exact ⟨hm, .inr rfl⟩
  | samples => exact ⟨hm, .inr rfl⟩
  | bitEnds => exact ⟨(State.advanceBit_mode _).trans hm, .inr (by simp [Phase.inBitLoop])⟩
  | captureEnds => exact ⟨hm, .inl rfl⟩
  | _ => simp_all [Phase.inBitLoop]

/-- A released line stays released through any ticks. -/
theorem after_ticks_released {s : State} (h : s.released) (es : List Level) : ∃ t, after (ticks es) s = some t ∧ t.released := by
  induction es generalizing s with
  | nil => exact ⟨s, rfl, h⟩
  | cons e es ih =>
    have hp : (s.draw (some e)).phase ≠ .issue := h.not_issue
    rw [after_ticks_arm s e es h.not_issue]
    exact ih ((sequencerTick_effect _ hp).released h)

/-- START or READ leaves the line released from tick S on. -/
theorem after_ticks_signal_released {s : State} {es : List Level} (hlegal : s.params.Legal) (hp : s.phase = .issue)
    (hi : s.cur.instr? = some .start ∨ s.cur.instr? = some .read) (hle : s.params.startLowUs + 31 ≤ es.length) :
    ∃ t, after (ticks es) s = some t ∧ t.released := by
  have hlen : (es.take (s.params.startLowUs + 31)).length = s.params.startLowUs + 31 := List.length_take_of_le hle
  rw [← List.take_append_drop (s.params.startLowUs + 31) es, ticks_append, after_append,
    after_ticks_startSignal hlegal hp hi hlen]
  exact after_ticks_released (State.releasePin_released _) _

/-- Settles O34: the run is in the issue state, in one of the two drives, at the end of the signal or past it. -/
theorem startWaveform : Obligations.StartWaveform := by
  intro s es hp hb hlegal hi
  obtain h | h | h | h | h : es.length = 0 ∨ (1 ≤ es.length ∧ es.length ≤ s.params.startLowUs) ∨
      (s.params.startLowUs + 1 ≤ es.length ∧ es.length ≤ s.params.startLowUs + 30) ∨
      es.length = s.params.startLowUs + 31 ∨ s.params.startLowUs + 31 < es.length := by omega
  · obtain rfl := List.eq_nil_of_length_eq_zero h
    exact ⟨s, rfl, fun _ => s.lineWith_eq_ite, by omega, by omega, fun _ => ⟨hb, by rw [hp]; rfl⟩, by omega, by omega⟩
  · obtain ⟨hpos, hle⟩ := h
    exact ⟨_, after_ticks_signalLow hlegal hp hi hpos hle, by omega, fun _ _ => ⟨rfl, State.lineWith_output rfl⟩, by omega,
      fun _ => ⟨hb, rfl⟩, by omega, by omega⟩
  · obtain ⟨hlow, hle⟩ := h
    exact ⟨_, after_ticks_signalHigh hlegal hp hi hlow hle, by omega, by omega, fun _ _ => ⟨rfl, State.lineWith_output rfl⟩,
      fun _ => ⟨hb, rfl⟩, by omega, by omega⟩
  · obtain ⟨hm, -⟩ := (s.signalHigh es 30).releasePin_released
    refine ⟨_, after_ticks_startSignal hlegal hp hi h, by omega, by omega, by omega, by omega, fun _ => ⟨hm, State.lineWith_input hm⟩,
      fun _ => ⟨fun hi => ?_, fun hi => ?_⟩⟩
    · rw [State.releasePin_of_start (s := s.signalHigh es 30) hi]
      exact ⟨rfl, rfl⟩
    · rw [State.releasePin_of_read (s := s.signalHigh es 30) (Cur.isRead_iff.2 hi)]
      exact ⟨hb, rfl⟩
  · obtain ⟨t, hrun, hm, -⟩ := after_ticks_signal_released hlegal hp hi h.le
    exact ⟨t, hrun, by omega, by omega, by omega, by omega, fun _ => ⟨hm, State.lineWith_input hm⟩, by omega⟩

/-! ### The state after START (42_start_signal.md R145) -/

/-- Settles O35: START ends its signal in IDLE with CNT = 30, and idle ticks count from there. -/
theorem stateAfterStart : Obligations.StateAfterStart := by
  intro s es fs hp hok hlegal hi hlen
  have hi' : (s.signalHigh es 30).cur.instr? = some .start := hi
  rw [ticks_append, after_append, after_ticks_startSignal hlegal hp (.inl hi) hlen, Option.bind_some, State.releasePin_of_start hi',
    after_ticks_idle rfl hlegal.startHigh_lt, Option.some.injEq]
  ext1
  case ok => exact hok
  case env => exact (getLastD_append es fs s.env).symm
  case draws => simp [State.counted, State.signalHigh]; omega
  all_goals rfl

end Sys2Proof.Machine
end

section
/-! SUPPORT. A tick and what it does not read: DATA, the error flags and HOST's side of the run (spec/43_edge_sampler.md R172, R176). -/

namespace Sys2Proof.Machine

/-! ### The effect of a tick is the tick (40_timer.md R100) -/

/-- Each effect is what SEQ's part of the tick does in the state that has its tests. -/
theorem TickEffect.runCurrent {s t : State} (h : TickEffect s t) : runCurrent s = .next t := by
  have issue {i : Instr} (hp : s.phase = .issue) (hi : s.cur.instr? = some i) : Machine.runCurrent s = exec i s :=
    runCurrent_issue hp hi
  have arm (hp : s.phase ≠ .issue) (ht : sequencerTick id s = t) : Machine.runCurrent s = .next t :=
    (runCurrent_arm s hp).trans (congrArg _ ht)
  cases h with
  | cfgOut hp hi => exact (issue hp hi).trans (exec_issue .cfgOut s hp)
  | cfgIn hp hi => exact (issue hp hi).trans (exec_issue .cfgIn s hp)
  | write l hp hi => exact (issue hp hi).trans (exec_issue (.write l) s hp)
  | sense hp hi => exact (issue hp hi).trans (exec_issue .sense s hp)
  | timReset hp hi => exact (issue hp hi).trans (exec_issue .timReset s hp)
  | delayZero hp hi => exact (issue hp hi).trans (exec_issue (.delay 0) s hp)
  | delayBegins n hp hi hn =>
    rw [issue hp hi, exec_delay_issue n hp, issueDelay_pos hn]
    rfl
  | waitBegins l hp hi => exact (issue hp hi).trans (exec_issue (.waitWhile l) s hp)
  | startBegins hp hi =>
    obtain hi | hi := hi
    · exact (issue hp hi).trans (exec_issue .start s hp)
    · exact (issue hp hi).trans (exec_issue .read s hp)
  | captureBegins hp hi => exact (issue hp hi).trans (exec_issue .capture s hp)
  | idles hp => exact arm (by simp [hp]) (by simp [sequencerTick, hp, idleArm])
  | waits n hn hlt => exact arm hn.not_issue ((sequencerTick_effect s hn.not_issue).eq_count_of_timedWait hn hlt)
  | watches hw =>
    obtain ⟨hp, hl⟩ | ⟨hp, hl⟩ | ⟨hp, hl⟩ := hw
    · exact arm (by simp [hp]) (by simp [sequencerTick, hp, levelWaitArm, hl])
    · exact arm (by simp [hp]) (by simp [sequencerTick, hp, capWaitLowArm, hl])
    · exact arm (by simp [hp]) (by simp [sequencerTick, hp, capWaitHighArm, hl])
  | delayEnds hp hle => exact arm (by simp [hp]) (by simp [sequencerTick, hp, delayWaitArm, hle])
  | waitEnds hp hl => exact arm (by simp [hp]) (by simp [sequencerTick, hp, levelWaitArm, hl])
  | pinRises hp hle => exact arm (by simp [hp]) (by simp [sequencerTick, hp, startLowArm, hle])
  | startEnds hp hle hr => exact arm (by simp [hp]) (by simp [sequencerTick, hp, startHighArm, hle, hr])
  | readReleases hp hle hr => exact arm (by simp [hp]) (by simp [sequencerTick, hp, startHighArm, hle, hr])
  | lineRises hp hl => exact arm (by simp [hp]) (by simp [sequencerTick, hp, capWaitLowArm, hl])
  | samples hp hle => exact arm (by simp [hp]) (by simp [sequencerTick, hp, capDelayArm, hle])
  | bitEnds hp hl hlast => exact arm (by simp [hp]) (by simp [sequencerTick, hp, capWaitHighArm, hl, hlast])
  | captureEnds hp hl hlast => exact arm (by simp [hp]) (by simp [sequencerTick, hp, capWaitHighArm, hl, hlast])

/-- A tick has one effect. -/
theorem TickEffect.unique {s t u : State} (ht : TickEffect s t) (hu : TickEffect s u) : t = u :=
  Host.Outcome.next.inj (ht.runCurrent.symm.trans hu.runCurrent)

/-- The first tick of a run of ticks, by its effect. -/
theorem after_ticks_effect {s t : State} {e : Level} (es : List Level) (h : TickEffect (s.draw (some e)) t) :
    after (ticks (e :: es)) s = after (ticks es) t := by
  rw [after_ticks_cons, h.runCurrent]
  rfl

/-- The first tick of a run of ticks that answers has an effect. -/
theorem exists_effect_of_after {s t : State} {e : Level} {es : List Level} (h : after (ticks (e :: es)) s = some t) :
    ∃ r, TickEffect (s.draw (some e)) r ∧ after (ticks es) r = some t := by
  rw [after_ticks_cons] at h
  cases hr : runCurrent (s.draw (some e)) with
  | fault x => cases x
  | refused x => simp [hr, nextState?] at h
  | next r => exact ⟨r, runCurrent_effect hr, by simpa [hr, nextState?] using h⟩

/-- Two runs of ticks, one after the other. -/
theorem after_ticks_trans {s t u : State} {es fs : List Level} (ht : after (ticks es) s = some t)
    (hu : after (ticks fs) t = some u) : after (ticks (es ++ fs)) s = some u := by
  rw [ticks_append, after_append, ht, Option.bind_some, hu]

/-! ### What a tick does not read -/

/-- DATA after a tick of `s`, where the tick finds `d` there: the sample writes one bit of it, and no other tick writes it
(43_edge_sampler.md R165). -/
def State.nextData (s : State) (d : Vector Byte 5) : Vector Byte 5 :=
  if s.phase = .capDelay ∧ Config.sampleUs ≤ s.nextCnt then (({ s with data := d } : State).storeBit s.line).data else d

/-- `s` with DATA replaced by `d`, and the error flags and HOST's side of the run by those of `x`. -/
def State.onto (s : State) (d : Vector Byte 5) (x : State) : State :=
  { s with data := d, err := x.err, errCause := x.errCause, draws := x.draws, turns := x.turns, program := x.program,
           rdata := x.rdata, vars := x.vars }

theorem State.advanceBit_onto (s : State) (d : Vector Byte 5) (x : State) : (s.onto d x).advanceBit = s.advanceBit.onto d x := by
  have hi : (s.onto d x).bitIdx = s.bitIdx := rfl
  unfold State.advanceBit
  rw [hi]
  split
  · rfl
  · rfl

theorem State.nextData_sample {s : State} (hp : s.phase = .capDelay) (hle : Config.sampleUs ≤ s.nextCnt) (d : Vector Byte 5) :
    s.nextData d = (({ s with data := d } : State).storeBit s.line).data := if_pos ⟨hp, hle⟩

theorem State.nextData_keep {s : State} (h : s.phase = .capDelay → s.nextCnt < Config.sampleUs) (d : Vector Byte 5) :
    s.nextData d = d := if_neg fun ⟨hp, hle⟩ => (h hp).not_ge hle

/-- No tick reads DATA, the error flags or HOST's side of the run: what it does to the rest does not depend on them. -/
theorem TickEffect.onto {s t : State} (h : TickEffect s t) (d : Vector Byte 5) (x : State) :
    TickEffect (s.onto d x) (t.onto (s.nextData d) x) := by
  have keep {p : Phase} (hp : s.phase = p) (hne : p ≠ .capDelay) : s.nextData d = d :=
    State.nextData_keep (fun h' => absurd (hp.symm.trans h') hne) d
  cases h with
  | samples hp hle => rw [State.nextData_sample hp hle]; exact .samples hp hle
  | waits n hn hlt =>
    rw [State.nextData_keep (fun hp => State.timedWait_unique hn (.inr (.inr (.inr ⟨hp, rfl⟩))) ▸ hlt)]
    exact .waits n hn hlt
  | watches hw =>
    rw [State.nextData_keep (fun hp => by simp [hp] at hw)]
    exact .watches hw
  | cfgOut hp hi => rw [keep hp (by decide)]; exact .cfgOut hp hi
  | cfgIn hp hi => rw [keep hp (by decide)]; exact .cfgIn hp hi
  | write l hp hi => rw [keep hp (by decide)]; exact .write l hp hi
  | sense hp hi => rw [keep hp (by decide)]; exact .sense hp hi
  | timReset hp hi => rw [keep hp (by decide)]; exact .timReset hp hi
  | delayZero hp hi => rw [keep hp (by decide)]; exact .delayZero hp hi
  | delayBegins n hp hi hn => rw [keep hp (by decide)]; exact .delayBegins n hp hi hn
  | waitBegins l hp hi => rw [keep hp (by decide)]; exact .waitBegins l hp hi
  | startBegins hp hi => rw [keep hp (by decide)]; exact .startBegins hp hi
  | captureBegins hp hi => rw [keep hp (by decide)]; exact .captureBegins hp hi
  | idles hp => rw [keep hp (by decide)]; exact .idles hp
  | delayEnds hp hle => rw [keep hp (by decide)]; exact .delayEnds hp hle
  | waitEnds hp hl => rw [keep hp (by decide)]; exact .waitEnds hp hl
  | pinRises hp hle => rw [keep hp (by decide)]; exact .pinRises hp hle
  | startEnds hp hle hr => rw [keep hp (by decide)]; exact .startEnds hp hle hr
  | readReleases hp hle hr => rw [keep hp (by decide)]; exact .readReleases hp hle hr
  | lineRises hp hl => rw [keep hp (by decide)]; exact .lineRises hp hl
  | bitEnds hp hl hlast =>
    rw [keep hp (by decide), ← State.advanceBit_onto]
    exact .bitEnds hp hl hlast
  | captureEnds hp hl hlast => rw [keep hp (by decide)]; exact .captureEnds hp hl hlast

section
variable {s t : State} (h : TickEffect s t)
include h

/-- No tick reaches for HOST's side of the run. -/
theorem TickEffect.host_eq :
    t.draws = s.draws ∧ t.turns = s.turns ∧ t.program = s.program ∧ t.rdata = s.rdata ∧ t.vars = s.vars := by
  cases h <;> simp

/-- After a tick, to take HOST's side of the run from the state before it is to replace DATA alone. -/
theorem TickEffect.onto_self (d : Vector Byte 5) : t.onto d s = { t with data := d } := by
  obtain ⟨hdraws, hturns, hprogram, hrdata, hvars⟩ := h.host_eq
  ext1 <;> simp [State.onto, h.err_eq, h.errCause_eq, *]

/-- The same tick with other bytes in DATA. -/
theorem TickEffect.withData (d : Vector Byte 5) : TickEffect { s with data := d } { t with data := s.nextData d } := by
  rw [← h.onto_self]
  exact h.onto d s

/-- DATA after the tick. -/
theorem TickEffect.data_eq : t.data = s.nextData s.data :=
  congrArg State.data (h.unique (h.withData s.data))

end

/-- Settles O53: each tick from the one state is a tick from the other, and only DATA may differ after it. -/
theorem dataNeverSteers : Obligations.DataNeverSteers := by
  intro s d es t h
  induction es generalizing s d with
  | nil =>
    obtain rfl : s = t := Option.some.inj h
    exact ⟨d, rfl⟩
  | cons e es ih =>
    obtain ⟨r, hr, hrun⟩ := exists_effect_of_after h
    obtain ⟨d', hrun'⟩ := ih r _ hrun
    exact ⟨d', (after_ticks_effect es (s := { s with data := d }) (hr.withData d)).trans hrun'⟩

/-! ### HOST's accesses between the ticks (43_edge_sampler.md R176) -/

namespace State.sameSeq

theorem refl (s : State) : s.sameSeq s := by
  simp [State.sameSeq]

section
variable {s t : State} (h : s.sameSeq t)
include h

theorem busy_eq : s.busy = t.busy := by
  obtain ⟨-, -, -, -, hbusy, -⟩ := h
  exact hbusy

theorem trans {u : State} (h' : t.sameSeq u) : s.sameSeq u := by
  simp_all [State.sameSeq]

/-- The states differ in what no tick reads alone. -/
theorem eq_onto (henv : s.env = t.env) : t = s.onto s.data t := by
  obtain ⟨hmode, holat, hcnt, hdata, hbusy, hlevel, hok, hphase, hbit, hbyte, hcur, hparams⟩ := h
  ext1 <;> simp [State.onto, *]

end

/-- A tick at the same level does the same in both states. -/
theorem tick {s t s' t' : State} {e : Level} (h : s.sameSeq t) (hs : TickEffect (s.draw (some e)) s')
    (ht : TickEffect (t.draw (some e)) t') : s'.sameSeq t' := by
  have hdraw : (s.draw (some e)).sameSeq (t.draw (some e)) := h
  have hon := hs.onto (s.draw (some e)).data (t.draw (some e))
  rw [← hdraw.eq_onto rfl] at hon
  rw [ht.unique hon, ← hs.data_eq]
  simp [State.sameSeq, State.onto]

end State.sameSeq

/-- A register write while a command is in progress may raise or clear an error, and does nothing else (20_memory.md R55). -/
theorem State.hostWrite_sameSeq {s : State} (hb : s.busy = true) (off : Nat) (v : Word) : (s.hostWrite off v).sameSeq s := by
  have hreg : (s.writeReg off v).sameSeq s := by
    obtain ⟨-, h⟩ | ⟨-, -, h⟩ | ⟨-, -, h⟩ | ⟨-, -, h⟩ := s.writeReg_cases off v <;> rw [h]
    · rw [State.writeCmd_of_busy v hb]
      simp [State.sameSeq]
    all_goals exact .refl s
  exact hreg

/-- No host access disturbs a command in progress. -/
theorem takeTurn_host_sameSeq {turn : Turn} {s t : State} (h : takeTurn turn s = .next t) (htick : ∀ e, turn ≠ .tick e)
    (hreset : turn ≠ .reset) (hb : s.busy = true) : t.sameSeq s := by
  obtain ⟨e, he, -⟩ | ⟨off, -, -, -, rfl⟩ | ⟨off, v, -, -, -, rfl⟩ | ⟨-, -, rfl⟩ | ⟨ops, -, -, rfl⟩ | ⟨off, ops, -, -, -, -, rfl⟩ |
    ⟨off, v, ops, -, -, -, -, rfl⟩ | ⟨hr, -⟩ := takeTurn_cases h
  · exact absurd he (htick e)
  · exact .refl _
  · exact State.hostWrite_sameSeq hb off v
  · exact .refl _
  · exact (State.sameBlock.pollRead ops s).1
  · exact .refl _
  · exact State.hostWrite_sameSeq (s := { s with program := ops }) hb off v
  · exact absurd hr hreset

/-- The first step of a run that answers has a next state. -/
theorem exists_takeTurn_of_after {turn : Turn} {ts : List Turn} {s t : State} (h : after (turn :: ts) s = some t) :
    ∃ r, takeTurn turn s = .next r ∧ after ts r = some t := by
  rw [after_cons] at h
  cases hr : takeTurn turn s with
  | fault x => cases x
  | refused x => simp [hr, nextState?] at h
  | next r => exact ⟨r, rfl, by simpa [hr, nextState?] using h⟩

/-- Settles O44: HOST's accesses keep the two runs in agreement, and so does each tick that both take. -/
theorem hostScheduleInvisible : Obligations.HostScheduleInvisible := by
  intro s t u ts e hb hp hts hbusy ht hu
  suffices h : ∀ s' : State, s'.sameSeq s → after (ts ++ [.tick (some e)]) s' = some t → t.sameSeq u from
    h s (.refl s) ht
  clear ht hp
  induction ts generalizing s with
  | nil =>
    intro s' hs ht
    obtain ⟨t', ht', hrun⟩ := exists_effect_of_after (es := []) ht
    obtain ⟨u', hu', hrun'⟩ := exists_effect_of_after (es := []) hu
    obtain rfl : t' = t := Option.some.inj hrun
    obtain rfl : u' = u := Option.some.inj hrun'
    exact hs.tick ht' hu'
  | cons turn ts ih =>
    intro s' hs ht
    have hturn : turn.hostOrGiven = true := hts turn (by simp)
    have hts' : ∀ turn ∈ ts, turn.hostOrGiven = true := fun x hx => hts x (by simp [hx])
    obtain ⟨r, hr, hrun⟩ := exists_takeTurn_of_after ht
    have host (htick : ∀ e, turn ≠ .tick e) (hreset : turn ≠ .reset) : r.sameSeq s :=
      (takeTurn_host_sameSeq hr htick hreset (hs.busy_eq.trans hb)).trans hs
    cases turn with
    | reset => simp [Turn.hostOrGiven] at hturn
    | access a => exact ih s hb hts' hbusy hu r (host (by simp) (by simp)) hrun
    | program => exact ih s hb hts' hbusy hu r (host (by simp) (by simp)) hrun
    | tick f =>
      cases f with
      | none => simp [Turn.hostOrGiven] at hturn
      | some f =>
        obtain ⟨q, hq, hrun'⟩ := exists_effect_of_after (es := givenLevels ts ++ [e]) hu
        have hticks (n : Nat) : after (ticks ((givenLevels (.tick (some f) :: ts)).take (n + 1))) s =
            after (ticks ((givenLevels ts).take n)) q := after_ticks_effect _ hq
        obtain ⟨hqb, -⟩ := hbusy 1 q ((hticks 0).trans rfl)
        exact ih q hqb hts' (fun n v hv => hbusy (n + 1) v ((hticks n).trans hv)) hrun' r
          (hs.tick (runCurrent_effect hr) hq) hrun

end Sys2Proof.Machine
end

section
/-! SUPPORT. The waits on the line: WAIT_WHILE and the two waits of the bit loop (spec/43_edge_sampler.md R160, R161, R173). -/

namespace Sys2Proof.Machine

/-! ### Ticks in which the line is the awaited level (43_edge_sampler.md R173) -/

/-- A wait that lasts while the line is `l`: CAP_WAITLOW, CAP_WAITHIGH or LEVEL_WAIT (43_edge_sampler.md R161, R164, R166). -/
def State.watching (s : State) (l : Level) : Prop :=
  (s.phase = .capWaitLow ∧ l = false) ∨ (s.phase = .capWaitHigh ∧ l = true) ∨ (s.phase = .levelWait ∧ l = s.cur.l)

/-- While the line is the awaited level, a tick only counts. -/
theorem State.watching.counts {s : State} {l : Level} (hw : s.watching l) (hl : s.line = l) : TickEffect s s.count := by
  subst hl
  obtain hw | hw | hw := hw
  · exact .watches (.inr (.inl hw))
  · exact .watches (.inr (.inr hw))
  · exact .watches (.inl hw)

/-- A first tick that counts. -/
theorem State.counted_cons (s : State) (e : Level) (es : List Level) :
    (s.draw (some e)).count.counted es = s.counted (e :: es) := by
  ext1
  case cnt => simp [counted, nextCnt, Nat.add_assoc, Nat.add_comm 1]
  case env => exact (List.getLastD_cons (a := s.env) ..).symm
  case draws => simp [counted, Nat.add_assoc, Nat.add_comm 1]
  all_goals rfl

/-- While the line stays at the awaited level, a run of ticks only counts. -/
theorem after_ticks_watching {s : State} {l : Level} {es : List Level} (hw : s.watching l) (hl : ∀ e ∈ es, s.lineWith e = l)
    (h0 : es = [] → s.cnt < s.params.cntRange) : after (ticks es) s = some (s.counted es) := by
  induction es generalizing s with
  | nil => rw [State.counted_nil (h0 rfl), after_ticks_nil]
  | cons e es ih =>
    have hd : (s.draw (some e)).watching l := hw
    rw [after_ticks_effect es (hd.counts (hl e (by simp))), ← State.counted_cons]
    exact ih hd (fun f hf => hl f (by simp [hf])) fun _ => State.nextCnt_lt _

/-! ### WAIT_WHILE (43_edge_sampler.md R160, R161) -/

/-- In LEVEL_WAIT, WAIT_WHILE #l waits while the line is l. -/
theorem exec_waitWhile_wait (l : Level) {s : State} (hp : s.phase = .levelWait) :
    exec (.waitWhile l) s = .next (levelWaitArm l s) := by
  simp [exec, execWaitWhile, waitWhileTick, hp]

/-- The LEVEL_WAIT arm in one record update (43_edge_sampler.md R161). -/
theorem levelWaitArm_eq (l : Level) {s : State} (hp : s.phase = .levelWait) :
    levelWaitArm l s = { s with
      cnt := s.nextCnt
      busy := if s.line = l then s.busy else false
      phase := if s.line = l then .levelWait else .idle } := by
  unfold levelWaitArm
  by_cases hl : s.line = l
  · rw [if_neg (not_not_intro hl), if_pos hl, if_pos hl, ← hp]
    rfl
  · rw [if_pos hl, if_neg hl, if_neg hl]
    rfl

section
variable {s : State} {l e0 : Level} {es : List Level} (hp : s.phase = .issue) (hi : s.cur.instr? = some (.waitWhile l))
  (hes : ∀ e ∈ es, s.lineWith e = l)
include hp hi hes

/-- WAIT_WHILE #l from its issue tick only counts while the line is l. -/
theorem after_ticks_waitWhile : after (ticks (e0 :: es)) s = some ((issueWaitWhile (s.draw (some e0))).counted es) := by
  rw [after_ticks_issue es hp hi (exec_issue (.waitWhile l) _ hp)]
  have hlevel : s.cur.l = l := Cur.level_of_waitWhile hi
  exact after_ticks_watching (.inr (.inr ⟨rfl, hlevel.symm⟩)) hes fun _ => State.nextCnt_lt _

/-- WAIT_WHILE #l completes in the first tick after its issue tick whose line is not l. -/
theorem after_ticks_waitWhile_ends {e : Level} (he : s.lineWith e ≠ l) :
    after (ticks (e0 :: (es ++ [e]))) s = some (((issueWaitWhile (s.draw (some e0))).counted es).draw (some e)).count.complete := by
  have hlevel : s.cur.l = l := Cur.level_of_waitWhile hi
  have hends : TickEffect _ (((issueWaitWhile (s.draw (some e0))).counted es).draw (some e)).count.complete :=
    .waitEnds rfl (hlevel ▸ he)
  exact after_ticks_trans (after_ticks_waitWhile hp hi hes) (after_ticks_effect [] hends)

end

/-- Settles O36: the issue tick begins a wait that lasts while the line is l, and the first tick with another line ends it. -/
theorem waitWhileEffect : Obligations.WaitWhileEffect := by
  refine ⟨⟨acceptsRow .waitWhile, by decide, by decide⟩, fun s l hp => exec_issue (.waitWhile l) s hp, fun s l hp => ?_,
    fun s l e0 es hp hb hi hes => ⟨_, after_ticks_waitWhile hp hi hes, hb, rfl, fun e he => ?_⟩⟩
  · rw [exec_waitWhile_wait l hp, levelWaitArm_eq l hp]
    rfl
  · exact ⟨_, after_ticks_waitWhile_ends hp hi hes he, rfl, rfl, rfl, rfl, rfl⟩

/-! ### The waits are unbounded (43_edge_sampler.md R173) -/

/-- Neither the state nor the step lets the line leave `l`: OUT mode with the latch at `l` and any step but Reset, or IN mode and a host
access or a tick at `l`. -/
def State.keepsLine (s : State) (l : Level) (turn : Turn) : Prop :=
  (s.mode = .output ∧ s.olat = l ∧ turn ≠ .reset) ∨ (s.mode = .input ∧ turn.hostOrTickAt l = true)

section
variable {s : State} {l : Level}

theorem State.keepsLine.ne_reset {turn : Turn} (h : s.keepsLine l turn) : turn ≠ .reset := by
  rintro rfl
  simp [State.keepsLine, Turn.hostOrTickAt] at h

theorem State.keepsLine.line_eq {e : Option Level} (h : s.keepsLine l (.tick e)) : (s.draw e).line = l := by
  obtain ⟨hm, ho, -⟩ | ⟨hm, ht⟩ := h
  · exact (State.line_output (s := s.draw e) hm).trans ho
  · cases e with
    | none => simp [Turn.hostOrTickAt] at ht
    | some e => exact (State.line_input (s := s.draw (some e)) hm).trans (by simpa [Turn.hostOrTickAt] using ht)

/-- A step that lets the line stay at the awaited level changes nothing SEQ works with but the counter. -/
theorem State.watching.step {turn : Turn} {r : State} (hw : s.watching l) (hb : s.busy = true) (hk : s.keepsLine l turn)
    (h : takeTurn turn s = .next r) : r.sameSeq { s with cnt := r.cnt } := by
  have host (htick : ∀ e, turn ≠ .tick e) : r.sameSeq { s with cnt := r.cnt } := by
    rw [takeTurn_host_cnt h htick hk.ne_reset]
    exact takeTurn_host_sameSeq h htick hk.ne_reset hb
  cases turn with
  | reset => exact absurd rfl hk.ne_reset
  | access a => exact host (by simp)
  | program => exact host (by simp)
  | tick e =>
    have hd : (s.draw e).watching l := hw
    obtain rfl := (runCurrent_effect h).unique (hd.counts hk.line_eq)
    exact .refl (s.draw e).count

/-- Through any steps that let the line stay at the awaited level, nothing SEQ works with changes but the counter. -/
theorem State.watching.run {ts : List Turn} {t : State} (hw : s.watching l) (hb : s.busy = true)
    (hk : ∀ turn ∈ ts, s.keepsLine l turn) (h : after ts s = some t) : t.sameSeq { s with cnt := t.cnt } := by
  induction ts generalizing s with
  | nil =>
    obtain rfl : s = t := Option.some.inj h
    exact .refl _
  | cons turn ts ih =>
    obtain ⟨r, hr, hrun⟩ := exists_takeTurn_of_after h
    have hsame := hw.step hb (hk turn (by simp)) hr
    obtain ⟨hmode, holat, -, -, hbusy, -, -, hphase, -, -, hcur, -⟩ := id hsame
    have hw' : r.watching l := by
      rw [State.watching, hphase, hcur]
      exact hw
    have hk' (x : Turn) (hx : x ∈ ts) : r.keepsLine l x := by
      rw [State.keepsLine, hmode, holat]
      exact hk x (by simp [hx])
    have hsame' : ({ r with cnt := t.cnt } : State).sameSeq { s with cnt := t.cnt } := by
      simp_all [State.sameSeq]
    exact (ih hw' (hbusy.trans hb) hk' hrun).trans hsame'

end

/-- Settles O42: every step that lets the line stay is a host access or a tick that only counts, and such ticks never stop. -/
theorem waitsAreUnbounded : Obligations.WaitsAreUnbounded := by
  intro s l ts hb hw hline
  have hw : s.watching l := hw
  have hk (turn : Turn) (hturn : turn ∈ ts) : s.keepsLine l turn := by
    obtain ⟨hm, ho, hts⟩ | ⟨hm, hts⟩ := hline
    · exact .inl ⟨hm, ho, hts turn hturn⟩
    · exact .inr ⟨hm, hts turn hturn⟩
  refine ⟨fun t h => ?_, ?_⟩
  · obtain ⟨hmode, holat, -, hdata, hbusy, -, hok, hphase, hbit, hbyte, hcur, -⟩ := hw.run hb hk h
    exact ⟨hbusy.trans hb, hphase, hbyte, hbit, hdata, hok, hmode, holat, hcur⟩
  · rintro ⟨es, rfl⟩
    have hl (e : Level) (he : e ∈ es) : s.lineWith e = l := (hk (.tick (some e)) (by simpa [ticks] using he)).line_eq
    obtain rfl | hne := eq_or_ne es []
    · exact ⟨s, rfl, rfl⟩
    · refine ⟨_, after_ticks_watching hw hl (absurd · hne), ?_⟩
      rw [ticks_length]
      exact Nat.mod_mod _ _

end Sys2Proof.Machine
end

section
/-! SUPPORT. The ticks of CAPTURE and READ, and CAPTURE in OUT mode (spec/43_edge_sampler.md R162-R168, R175). -/

namespace Sys2Proof

/-- The sample point comes before CNT wraps (00_scope.md R8). -/
theorem Params.Legal.sample_lt {p : Params} (h : p.Legal) : Config.sampleUs < p.cntRange :=
  lt_trans (by decide) h.count_lt

end Sys2Proof

namespace Sys2Proof.Machine

/-! ### The bits of DATA (20_memory.md R57, 43_edge_sampler.md R165) -/

/-- The sample writes one bit and keeps every other (43_edge_sampler.md R165). -/
theorem State.storeBit_getLsbD (s : State) (v : Level) (j : Fin 5) (b : Fin 8) :
    (s.storeBit v).data[j.val].getLsbD b.val =
      if j = s.byteIdx ∧ b.val = 7 - s.bitIdx.val then v else s.data[j.val].getLsbD b.val := by
  have hpos : 7 - s.bitIdx.val < 8 := by omega
  have hbit : b = ⟨7 - s.bitIdx.val, hpos⟩ ↔ b.val = 7 - s.bitIdx.val := Fin.ext_iff
  rw [State.storeBit_getElem]
  by_cases hj : j = s.byteIdx
  · subst hj
    rw [if_pos rfl, writeBit_getLsbD _ ⟨7 - s.bitIdx.val, hpos⟩ v b]
    simp [hbit]
  · simp [hj]

theorem State.lastBit_iff {s : State} : s.lastBit = true ↔ s.byteIdx.val = 4 ∧ s.bitIdx.val = 7 := by
  simp [State.lastBit]

/-! ### The tick of a command past its issue tick is the arm of PHASE (40_timer.md R100) -/

/-- Issue actions run in ISSUE alone. -/
theorem sequencerTick_arm (issue : State → State) {s : State} (h : s.phase ≠ .issue) : sequencerTick issue s = sequencerTick id s := by
  unfold sequencerTick
  cases hp : s.phase
  case issue => exact absurd hp h
  all_goals rfl

section
variable {s : State}

theorem exec_start_arm (h : s.phase ≠ .issue) : exec .start s = .next (sequencerTick id s) :=
  congrArg _ (sequencerTick_arm issueStart h)

theorem exec_capture_arm (h : s.phase ≠ .issue) : exec .capture s = .next (sequencerTick id s) :=
  congrArg _ (sequencerTick_arm issueCapture h)

theorem exec_read_arm (h : s.phase ≠ .issue) : exec .read s = .next (sequencerTick id s) :=
  congrArg _ (sequencerTick_arm issueRead h)

theorem exec_capture_waitLow (hp : s.phase = .capWaitLow) : exec .capture s = .next (capWaitLowArm s) := by
  simp [exec_capture_arm, hp, sequencerTick]

theorem exec_capture_delay (hp : s.phase = .capDelay) : exec .capture s = .next (capDelayArm s) := by
  simp [exec_capture_arm, hp, sequencerTick]

theorem exec_capture_waitHigh (hp : s.phase = .capWaitHigh) : exec .capture s = .next (capWaitHighArm s) := by
  simp [exec_capture_arm, hp, sequencerTick]

theorem exec_read_startHigh (hp : s.phase = .startHigh) : exec .read s = .next (startHighArm s) := by
  simp [exec_read_arm, hp, sequencerTick]

/-! ### The arms of the bit loop (43_edge_sampler.md R164-R166) -/

/-- The writes of the tick that detects a rise: the counter starts for the sample (43_edge_sampler.md R164). -/
def State.detectRise (s : State) : State := { s with cnt := 0, phase := .capDelay }

/-- The writes, beside CNT, of the sample's tick (43_edge_sampler.md R165). -/
def State.sampled (s : State) : State := { s.storeBit s.line with phase := .capWaitHigh }

section
variable (s : State) (es : List Level)

@[simp] theorem State.counted_mode : (s.counted es).mode = s.mode := rfl
@[simp] theorem State.counted_data : (s.counted es).data = s.data := rfl
@[simp] theorem State.counted_busy : (s.counted es).busy = s.busy := rfl
@[simp] theorem State.counted_phase : (s.counted es).phase = s.phase := rfl
@[simp] theorem State.counted_bitIdx : (s.counted es).bitIdx = s.bitIdx := rfl
@[simp] theorem State.counted_byteIdx : (s.counted es).byteIdx = s.byteIdx := rfl
@[simp] theorem State.counted_params : (s.counted es).params = s.params := rfl
@[simp] theorem State.counted_cnt : (s.counted es).cnt = (s.cnt + es.length) % s.params.cntRange := rfl

@[simp] theorem State.detectRise_mode : s.detectRise.mode = s.mode := rfl
@[simp] theorem State.detectRise_data : s.detectRise.data = s.data := rfl
@[simp] theorem State.detectRise_busy : s.detectRise.busy = s.busy := rfl
@[simp] theorem State.detectRise_phase : s.detectRise.phase = .capDelay := rfl
@[simp] theorem State.detectRise_bitIdx : s.detectRise.bitIdx = s.bitIdx := rfl
@[simp] theorem State.detectRise_byteIdx : s.detectRise.byteIdx = s.byteIdx := rfl
@[simp] theorem State.detectRise_params : s.detectRise.params = s.params := rfl
@[simp] theorem State.detectRise_cnt : s.detectRise.cnt = 0 := rfl

@[simp] theorem State.sampled_mode : s.sampled.mode = s.mode := rfl
@[simp] theorem State.sampled_data : s.sampled.data = (s.storeBit s.line).data := rfl
@[simp] theorem State.sampled_busy : s.sampled.busy = s.busy := rfl
@[simp] theorem State.sampled_phase : s.sampled.phase = .capWaitHigh := rfl
@[simp] theorem State.sampled_bitIdx : s.sampled.bitIdx = s.bitIdx := rfl
@[simp] theorem State.sampled_byteIdx : s.sampled.byteIdx = s.byteIdx := rfl
@[simp] theorem State.sampled_params : s.sampled.params = s.params := rfl
@[simp] theorem State.sampled_cnt : s.sampled.cnt = s.cnt := rfl

end

theorem capDelayArm_early (h : s.nextCnt < Config.sampleUs) : capDelayArm s = s.count := if_neg h.not_ge

theorem capDelayArm_sample (h : Config.sampleUs ≤ s.nextCnt) : capDelayArm s = s.count.sampled := if_pos h

theorem capWaitHighArm_high (hl : s.line = true) : capWaitHighArm s = s.count := if_pos hl

theorem capWaitHighArm_last (hl : s.line = false) (hlast : s.lastBit = true) : capWaitHighArm s = s.count.completeOk := by
  simp [capWaitHighArm, hl, hlast]

theorem capWaitHighArm_next (hl : s.line = false) (hlast : s.lastBit = false) : capWaitHighArm s = s.count.advanceBit := by
  simp [capWaitHighArm, hl, hlast]

end

/-- Settles O37: acceptance is the row's, the issue tick begins the loop, and each arm by its test. -/
theorem captureTicks : Obligations.CaptureTicks := by
  refine ⟨⟨acceptsRow .capture, by decide⟩, fun s hp => exec_issue .capture s hp, fun s hp => exec_capture_waitLow hp,
    fun s hp => ⟨capDelayArm s, exec_capture_delay hp, ?_⟩, fun s hp => ⟨capWaitHighArm s, exec_capture_waitHigh hp, ?_⟩⟩
  · obtain hlt | hle := Nat.lt_or_ge s.nextCnt Config.sampleUs
    · rw [capDelayArm_early hlt]
      exact ⟨rfl, fun _ => ⟨hp, rfl⟩, fun hle => absurd hle hlt.not_ge⟩
    · rw [capDelayArm_sample hle]
      exact ⟨rfl, fun hlt => absurd hlt hle.not_gt, fun _ => ⟨rfl, s.count.storeBit_getLsbD s.line⟩⟩
  · cases hl : s.line
    · cases hlast : s.lastBit
      · rw [capWaitHighArm_next hl hlast]
        have hidx := s.count.advanceBit_index hlast
        refine ⟨?_, nofun, fun _ hj hi => ?_, fun _ _ => ⟨?_, ?_, ?_, hidx⟩⟩
        · ext1 <;> simp [State.nextCnt, Params.cntRange]
        · simp [State.lastBit_iff.2 ⟨hj, hi⟩] at hlast
        · simp
        · simp
        · simp
      · rw [capWaitHighArm_last hl hlast]
        exact ⟨rfl, nofun, fun _ _ _ => ⟨rfl, rfl, rfl, rfl, rfl⟩, fun _ hne => absurd (State.lastBit_iff.1 hlast) hne⟩
    · rw [capWaitHighArm_high hl]
      exact ⟨rfl, fun _ => ⟨rfl, rfl, hp, rfl, rfl⟩, nofun, nofun⟩

/-- Settles O38: READ's ticks are the arms that START and CAPTURE run, and its START_HIGH arm goes on to the bit loop. -/
theorem readTicks : Obligations.ReadTicks := by
  refine ⟨⟨acceptsRow .read, by decide⟩, fun s hp => exec_issue .read s hp, fun s hp hop => ?_, fun s hp => ?_, fun s hp => ?_⟩
  · have hread : s.count.cur.isRead = true := by simp [Cur.isRead, hop]
    rw [exec_read_startHigh hp, startHighArm_eq, State.releasePin_of_read hread]
    rfl
  · rw [exec_read_arm (by simp [hp]), exec_start_arm (by simp [hp])]
  · have hissue : s.phase ≠ .issue := fun h => by simp [h, Phase.inBitLoop] at hp
    rw [exec_read_arm hissue, exec_capture_arm hissue]

/-! ### One bit's sample, as a timed wait (43_edge_sampler.md R164, R165, 40_timer.md R107) -/

theorem TickEffect.eq_sampled {s t : State} (ht : TickEffect s t) (hp : s.phase = .capDelay) (hle : Config.sampleUs ≤ s.nextCnt) :
    t = s.count.sampled :=
  ht.unique (.samples hp hle)

section
variable {s : State}

/-- A tick with the line high in CAP_WAITLOW detects the rise. -/
theorem after_ticks_rise {e : Level} (es : List Level) (hp : s.phase = .capWaitLow) (hl : s.lineWith e = true) :
    after (ticks (e :: es)) s = after (ticks es) (s.draw (some e)).detectRise :=
  after_ticks_effect es (.lineRises hp hl)

/-- From a rise CAP_DELAY only counts before its 40th tick. -/
theorem after_ticks_capDelay {es : List Level} (hlegal : s.params.Legal) (hlen : es.length < Config.sampleUs) :
    after (ticks es) s.detectRise = some (s.detectRise.counted es) :=
  after_ticks_timedWait (.inr (.inr (.inr ⟨rfl, rfl⟩))) rfl hlegal.sample_lt hlen

/-- The 40th tick of CAP_DELAY after a rise samples the line. -/
theorem after_ticks_capDelay_ends {es : List Level} (hlegal : s.params.Legal) (hlen : es.length = Config.sampleUs) :
    after (ticks es) s.detectRise = some (s.detectRise.counted es).sampled := by
  obtain ⟨d, t, hcounted, -, hnext, hdp, ht, hrun⟩ := after_ticks_timedWait_ends (s := s.detectRise)
    (.inr (.inr (.inr ⟨rfl, rfl⟩))) rfl hlegal.sample_lt (by decide) hlen
  rw [hrun, ht.eq_sampled hdp hnext.ge, hcounted]

end

/-- From a rise, the sample, and then a wait while the line stays high. -/
theorem after_ticks_sampled {s : State} {fs gs : List Level} (hlegal : s.params.Legal) (hlen : fs.length = Config.sampleUs)
    (hl : ∀ e ∈ gs, s.lineWith e = true) :
    after (ticks (fs ++ gs)) s.detectRise = some ((s.detectRise.counted fs).sampled.counted gs) :=
  after_ticks_trans (after_ticks_capDelay_ends hlegal hlen)
    (after_ticks_watching (.inr (.inl ⟨rfl, rfl⟩)) hl fun _ => Nat.mod_lt _ s.params.cntRange_pos)

/-- The first sample of a loop with the line high sets DATA[0] bit 7 and keeps every other bit. -/
theorem State.sampled_first_high {s : State} (hj : s.byteIdx = 0) (hi : s.bitIdx = 0) (hl : s.line = true) (j : Fin 5) (b : Fin 8) :
    s.sampled.data[j.val].getLsbD b.val = if j = 0 ∧ b = 7 then true else s.data[j.val].getLsbD b.val := by
  have hb : b.val = 7 ↔ b = 7 := (Fin.ext_iff (b := 7)).symm
  refine (s.storeBit_getLsbD s.line j b).trans ?_
  simp [hj, hi, hl, hb]

/-! ### CAPTURE in OUT mode (43_edge_sampler.md R175) -/

section
variable {s : State} (hp : s.phase = .issue) (hm : s.mode = .output) (hi : s.cur.instr? = some .capture) (e0 : Level)
include hp hm hi

/-- With the latch low, CAPTURE in OUT mode waits for a rise for ever. -/
theorem after_ticks_capture_low (ho : s.olat = false) (es : List Level) :
    after (ticks (e0 :: es)) s = some ((issueCapture (s.draw (some e0))).counted es) := by
  rw [after_ticks_issue es hp hi (exec_issue .capture _ hp)]
  have hline (e : Level) : (issueCapture (s.draw (some e0))).lineWith e = false := (State.lineWith_output hm e).trans ho
  exact after_ticks_watching (.inl ⟨rfl, rfl⟩) (fun e _ => hline e) fun _ => State.nextCnt_lt _

/-- With the latch high, CAPTURE in OUT mode detects a rise in the tick after its issue tick. -/
theorem after_ticks_capture_rise (ho : s.olat = true) (e1 : Level) (es : List Level) :
    after (ticks (e0 :: e1 :: es)) s = after (ticks es) ((issueCapture (s.draw (some e0))).draw (some e1)).detectRise := by
  rw [after_ticks_issue _ hp hi (exec_issue .capture _ hp)]
  exact after_ticks_rise (s := issueCapture (s.draw (some e0))) es rfl ((State.lineWith_output hm e1).trans ho)

/-- With the latch high, CAPTURE in OUT mode samples the latch and waits for a fall for ever. -/
theorem after_ticks_capture_high (ho : s.olat = true) (hlegal : s.params.Legal) (e1 : Level) {fs : List Level} (gs : List Level)
    (hlen : fs.length = Config.sampleUs) :
    after (ticks (e0 :: e1 :: (fs ++ gs))) s =
      some ((((issueCapture (s.draw (some e0))).draw (some e1)).detectRise.counted fs).sampled.counted gs) := by
  rw [after_ticks_capture_rise hp hm hi e0 ho]
  have hline (e : Level) : ((issueCapture (s.draw (some e0))).draw (some e1)).lineWith e = true :=
    (State.lineWith_output hm e).trans ho
  exact after_ticks_sampled hlegal hlen fun e _ => hline e

end

/-- Settles O43: in OUT mode the line is the latch, so a low latch leaves CAPTURE before the first rise and a high one after the first
sample. -/
theorem captureInOutputMode : Obligations.CaptureInOutputMode := by
  intro s es hlegal hm hp hb hi
  match es, ho : s.olat with
  | [], _ => exact ⟨s, rfl, hb, hm, by simp, by simp, by simp, by simp⟩
  | e0 :: es, false =>
    exact ⟨_, after_ticks_capture_low hp hm hi e0 ho es, hb, hm, fun _ _ => ⟨rfl, rfl, rfl, rfl⟩, nofun, nofun, nofun⟩
  | [e0], true =>
    exact ⟨_, after_ticks_issue [] hp hi (exec_issue .capture _ hp), hb, hm, nofun, by simp, by simp, by simp⟩
  | e0 :: e1 :: es, true =>
    have hlen : (e0 :: e1 :: es).length = es.length + 2 := rfl
    have hsample : Config.sampleUs = 40 := rfl
    obtain hlt | hge := Nat.lt_or_ge es.length Config.sampleUs
    · refine ⟨_, (after_ticks_capture_rise hp hm hi e0 ho e1 es).trans (after_ticks_capDelay hlegal hlt), hb, hm, nofun,
        fun _ h2 => ⟨rfl, ?_⟩, fun _ _ _ => ⟨rfl, rfl⟩, by omega⟩
      obtain rfl := List.eq_nil_of_length_eq_zero (l := es) (by omega)
      exact Nat.zero_mod _
    · have hrun := after_ticks_capture_high hp hm hi e0 ho hlegal e1 (es.drop Config.sampleUs) (List.length_take_of_le hge)
      rw [List.take_append_drop] at hrun
      have hline : (((issueCapture (s.draw (some e0))).draw (some e1)).detectRise.counted (es.take Config.sampleUs)).line = true :=
        (State.line_output (by simpa [issueCapture])).trans ho
      have hbits := State.sampled_first_high (by simp [issueCapture]) (by simp [issueCapture]) hline
      refine ⟨_, hrun, by simpa [issueCapture], by simpa [issueCapture], nofun, by omega, by omega, fun _ _ =>
        ⟨by simp, by simp [issueCapture], by simp [issueCapture], hbits 0 7, fun j b hne => ?_⟩⟩
      exact (hbits j b).trans (if_neg hne)

end Sys2Proof.Machine
end

section
/-! SUPPORT. The bits of DATA in arrival order, and what a capture overwrites (spec/20_memory.md R57, spec/43_edge_sampler.md R174). -/

namespace Sys2Proof.Machine

/-! ### Bits in arrival order (20_memory.md R57) -/

/-- Bit `k` of a capture: DATA[k div 8] bit 7 - (k mod 8) (20_memory.md R57). -/
def bitAt (d : Vector Byte 5) (k : Nat) : Level := (d.toList.getD (k / 8) 0).getLsbD (7 - k % 8)

/-- The number of the bit being received, 8 J + I (20_memory.md R57). -/
def State.bitNo (s : State) : Nat := 8 * s.byteIdx.val + s.bitIdx.val

theorem bitAt_eq (d : Vector Byte 5) {k : Nat} (hk : k < 40) : bitAt d k = d[k / 8].getLsbD (7 - k % 8) := by
  have hlen : k / 8 < d.toList.length := by simp; omega
  rw [bitAt, List.getD_eq_getElem d.toList 0 hlen, Vector.getElem_toList]

/-- The 40 bits are all of DATA. -/
theorem bitAt_ext {d d' : Vector Byte 5} (h : ∀ k, k < 40 → bitAt d k = bitAt d' k) : d = d' := by
  refine Vector.ext fun j hj => BitVec.eq_of_getLsbD_eq fun b hb => ?_
  have hk : 8 * j + (7 - b) < 40 := by omega
  have hbyte : (8 * j + (7 - b)) / 8 = j := by omega
  have hbit : 7 - (8 * j + (7 - b)) % 8 = b := by omega
  have hkey := h _ hk
  rw [bitAt_eq d hk, bitAt_eq d' hk] at hkey
  simpa only [hbyte, hbit] using hkey

namespace State
variable {s : State}

theorem bitNo_lt : s.bitNo < 40 := by
  rw [bitNo]
  omega

theorem lastBit_iff_bitNo : s.lastBit = true ↔ s.bitNo = 39 := by
  rw [lastBit_iff, bitNo]
  omega

theorem advanceBit_bitNo (h : s.lastBit = false) : s.advanceBit.bitNo = s.bitNo + 1 := s.advanceBit_index h

/-- The sample writes the bit being received and no other (43_edge_sampler.md R165). -/
theorem bitAt_storeBit (s : State) (v : Level) {k : Nat} (hk : k < 40) :
    bitAt (s.storeBit v).data k = if k = s.bitNo then v else bitAt s.data k := by
  have hbits := s.storeBit_getLsbD v ⟨k / 8, by omega⟩ ⟨7 - k % 8, by omega⟩
  have hpos : (k / 8 = s.byteIdx.val ∧ 7 - k % 8 = 7 - s.bitIdx.val) ↔ k = s.bitNo := by
    rw [bitNo]
    omega
  rw [bitAt_eq _ hk, bitAt_eq _ hk]
  simpa only [Fin.ext_iff, hpos] using hbits

/-- The bits a capture has written: those before the bit being received, and that bit once it is sampled. -/
def bitsDone (s : State) : Nat := if s.phase = .capWaitHigh ∨ s.phase = .idle then s.bitNo + 1 else s.bitNo

theorem bitNo_le_bitsDone : s.bitNo ≤ s.bitsDone := by
  unfold bitsDone
  split
  · exact Nat.le_succ _
  · exact le_rfl

theorem bitsDone_le : s.bitsDone ≤ s.bitNo + 1 := by
  unfold bitsDone
  split
  · exact le_rfl
  · exact Nat.le_succ _

end State

/-! ### Two captures that began with different bytes in DATA (43_edge_sampler.md R174) -/

/-- A capture began with `old` in DATA and is in the state `t`, and another goes the same way with `d` in DATA: the bits written are the
same in both, and the others are as they were in `old`. -/
structure Overwriting (old : Vector Byte 5) (t : State) (d : Vector Byte 5) : Prop where
  in_loop : t.phase = .idle ∨ t.phase.inBitLoop = true
  ends_last : t.phase = .idle → t.lastBit = true
  written : ∀ k, k < t.bitsDone → bitAt d k = bitAt t.data k
  kept : ∀ k, k < 40 → t.bitsDone ≤ k → bitAt t.data k = bitAt old k

namespace Overwriting
variable {old d : Vector Byte 5} {s t : State}

theorem begins (hp : s.phase = .capWaitLow) (h0 : s.bitNo = 0) (d : Vector Byte 5) : Overwriting s.data s d where
  in_loop := by simp [hp, Phase.inBitLoop]
  ends_last := by simp [hp]
  written := by simp [State.bitsDone, hp, h0]
  kept _ _ _ := rfl

/-- A tick of the bit loop that writes no bit. -/
theorem of_eq (h : Overwriting old s d) (hp : t.phase = .idle ∨ t.phase.inBitLoop = true) (hlast : t.phase = .idle → t.lastBit = true)
    (hdone : t.bitsDone = s.bitsDone) (hdata : t.data = s.data) : Overwriting old t d where
  in_loop := hp
  ends_last := hlast
  written := by rw [hdone, hdata]; exact h.written
  kept := by rw [hdone, hdata]; exact h.kept

/-- The sample writes the same bit in both captures. -/
theorem sampled (h : Overwriting old s d) (hp : s.phase = .capDelay) :
    Overwriting old s.count.sampled (({ s with data := d } : State).storeBit s.line).data := by
  have hdone : s.bitsDone = s.bitNo := by simp [State.bitsDone, hp]
  have hdone' : s.count.sampled.bitsDone = s.bitNo + 1 := by simp [State.bitsDone, State.bitNo]
  have hdata {k : Nat} (hk : k < 40) : bitAt s.count.sampled.data k = if k = s.bitNo then s.line else bitAt s.data k :=
    s.bitAt_storeBit s.line hk
  have hdata' {k : Nat} (hk : k < 40) :
      bitAt (({ s with data := d } : State).storeBit s.line).data k = if k = s.bitNo then s.line else bitAt d k :=
    ({ s with data := d } : State).bitAt_storeBit s.line hk
  refine ⟨.inr rfl, nofun, fun k hk => ?_, fun k hk hle => ?_⟩
  · have hlt := s.bitNo_lt
    rw [hdata (by omega), hdata' (by omega)]
    split
    · rfl
    · exact h.written k (by omega)
  · rw [hdata hk, if_neg (by omega)]
    exact h.kept k hk (by omega)

/-- Each tick keeps the two captures in agreement on the bits written. -/
theorem tick (h : Overwriting old s d) (ht : TickEffect s t) : Overwriting old t (s.nextData d) := by
  have keep {p : Phase} (hp : s.phase = p) (hne : p ≠ .capDelay) : s.nextData d = d :=
    State.nextData_keep (fun h' => absurd (hp.symm.trans h') hne) d
  have hloop := h.in_loop
  cases ht with
  | idles hp =>
    rw [keep hp (by decide)]
    exact h.of_eq hloop h.ends_last rfl rfl
  | waits n hn hlt =>
    rw [State.nextData_keep (fun hp => State.timedWait_unique hn (.inr (.inr (.inr ⟨hp, rfl⟩))) ▸ hlt)]
    exact h.of_eq hloop h.ends_last rfl rfl
  | watches hw =>
    rw [State.nextData_keep (fun hp => by simp [hp] at hw)]
    exact h.of_eq hloop h.ends_last rfl rfl
  | lineRises hp =>
    rw [keep hp (by decide)]
    exact h.of_eq (.inr rfl) nofun (by simp [State.bitsDone, State.bitNo, hp]) rfl
  | samples hp hle =>
    rw [State.nextData_sample hp hle]
    exact h.sampled hp
  | bitEnds hp _ hlast =>
    have hnext : s.count.advanceBit.bitNo = s.bitNo + 1 := State.advanceBit_bitNo (s := s.count) hlast
    rw [keep hp (by decide)]
    exact h.of_eq (by simp [Phase.inBitLoop]) (by simp) (by simp [State.bitsDone, hp, hnext]) (by simp)
  | captureEnds hp _ hlast =>
    rw [keep hp (by decide)]
    exact h.of_eq (.inl rfl) (fun _ => hlast) (by simp [State.bitsDone, State.bitNo, hp]) rfl
  | _ => simp_all [Phase.inBitLoop]

/-- After completion the two captures have the same DATA. -/
theorem eq_of_idle (h : Overwriting old s d) (hp : s.phase = .idle) : d = s.data := by
  have hlast := State.lastBit_iff_bitNo.1 (h.ends_last hp)
  refine bitAt_ext fun k hk => h.written k ?_
  rw [State.bitsDone, if_pos (.inr hp)]
  omega

/-- Through any ticks the two captures differ in DATA alone, and agree there on the bits written. -/
theorem run (h : Overwriting old s d) (es : List Level) :
    ∃ t d', after (ticks es) s = some t ∧ after (ticks es) { s with data := d } = some { t with data := d' } ∧
      Overwriting old t d' := by
  induction es generalizing s d with
  | nil => exact ⟨s, d, rfl, rfl, h⟩
  | cons e es ih =>
    have hp : (s.draw (some e)).phase ≠ .issue := fun hp => by
      have hloop := h.in_loop
      simp_all [Phase.inBitLoop]
    have ht := sequencerTick_effect _ hp
    have hd : Overwriting old (s.draw (some e)) d := ⟨h.in_loop, h.ends_last, h.written, h.kept⟩
    obtain ⟨t, d', hrun, hrun', hover⟩ := ih (hd.tick ht)
    exact ⟨t, d', (after_ticks_effect es ht).trans hrun,
      (after_ticks_effect es (s := { s with data := d }) (ht.withData d)).trans hrun', hover⟩

end Overwriting

/-- Settles O41: two captures from the start of the loop agree on the bits written, and have not touched the others. -/
theorem captureOverwritesData : Obligations.CaptureOverwritesData := by
  intro s d es hp hj hi
  have hbegins : Overwriting s.data s d := .begins hp (by simp [State.bitNo, hj, hi]) d
  obtain ⟨t, d', hrun, hrun', hover⟩ := hbegins.run es
  refine ⟨t, d', hrun, hrun', hover.eq_of_idle, fun k hk => ⟨fun hlt => ?_, fun hlt => ?_⟩⟩
  · exact hover.written k (lt_of_lt_of_le hlt State.bitNo_le_bitsDone)
  · exact hover.kept k hk (State.bitsDone_le.trans hlt)

end Sys2Proof.Machine
end

section
/-! SUPPORT. The decode law: a clean waveform through the bit loop, and through a whole READ (spec/43_edge_sampler.md R167-R169). -/

namespace Sys2Proof.Machine

/-! ### Runs that complete a command -/

/-- The ticks at the levels `ls` complete the command in progress in their tick number `n`, in the state `t`. -/
def State.completesIn (s : State) (ls : List Level) (n : Nat) (t : State) : Prop :=
  ∃ es e rest d, ls = es ++ e :: rest ∧ es.length + 1 = n ∧ after (ticks es) s = some d ∧ d.busy = true ∧
    TickEffect (d.draw (some e)) t

/-- A run of ticks in two parts has a state between them. -/
theorem exists_between_of_after {es fs : List Level} {s t : State} (h : after (ticks (es ++ fs)) s = some t) :
    ∃ u, after (ticks es) s = some u ∧ after (ticks fs) u = some t := by
  rw [ticks_append, after_append] at h
  exact Option.bind_eq_some_iff.1 h

/-- Ticks begin no command (30_encoding.md R81). -/
theorem busy_of_after_ticks {es : List Level} {s t : State} (h : after (ticks es) s = some t) (hb : t.busy = true) :
    s.busy = true := by
  induction es generalizing s with
  | nil =>
    obtain rfl : s = t := Option.some.inj h
    exact hb
  | cons e es ih =>
    obtain ⟨r, hr, hrun⟩ := exists_effect_of_after h
    have hrb := ih hrun
    obtain ⟨hbusy, -⟩ | ⟨hbusy, -⟩ := hr.busy_cases
    · exact hbusy.symm.trans hrb
    · simp [hbusy] at hrb

namespace State.completesIn
variable {s t : State} {ls : List Level} {n : Nat}

/-- Ticks before the ones that complete the command. -/
theorem prepend {r : State} {fs : List Level} (hfs : after (ticks fs) r = some s) (h : s.completesIn ls n t) :
    r.completesIn (fs ++ ls) (fs.length + n) t := by
  obtain ⟨es, e, rest, d, rfl, rfl, hrun, hb, ht⟩ := h
  refine ⟨fs ++ es, e, rest, d, by simp, by simp [Nat.add_assoc], after_ticks_trans hfs hrun, hb, ht⟩

/-- The run through the tick that completes the command. -/
theorem run (h : s.completesIn ls n t) : after (ticks (ls.take n)) s = some t := by
  obtain ⟨es, e, rest, d, rfl, rfl, hrun, -, ht⟩ := h
  have htake : (es ++ e :: rest).take (es.length + 1) = es ++ [e] := by simp [List.take_append]
  rw [htake]
  exact after_ticks_trans hrun (after_ticks_effect [] ht)

/-- In no tick before, the command is complete. -/
theorem busy (h : s.completesIn ls n t) {m : Nat} (hm : m < n) : ∃ u, after (ticks (ls.take m)) s = some u ∧ u.busy = true := by
  obtain ⟨es, e, rest, d, rfl, rfl, hrun, hb, -⟩ := h
  have htake : (es ++ e :: rest).take m = es.take m := List.take_append_of_le_length (by omega)
  rw [← List.take_append_drop m es] at hrun
  obtain ⟨u, hu, hrest⟩ := exists_between_of_after hrun
  exact ⟨u, htake ▸ hu, busy_of_after_ticks hrest hb⟩

end State.completesIn

/-! ### What the bit loop leaves unchanged (43_edge_sampler.md R169) -/

/-- `t` is as `s` in all that the bit loop does not write. -/
structure State.LoopFrame (s t : State) : Prop where
  mode_eq : t.mode = s.mode
  olat_eq : t.olat = s.olat
  level_eq : t.level = s.level
  err_eq : t.err = s.err
  errCause_eq : t.errCause = s.errCause
  cur_eq : t.cur = s.cur

/-- The ticks of a released line write nothing but CNT, DATA, OK, BUSY, PHASE, J and I. -/
theorem TickEffect.loopFrame {s t : State} (ht : TickEffect s t) (h : s.released) : s.LoopFrame t where
  mode_eq := by
    obtain ⟨hm', -⟩ := ht.released h
    obtain ⟨hm, -⟩ := h
    exact hm'.trans hm.symm
  olat_eq := by
    have hp := h.not_issue
    obtain ⟨-, hloop⟩ := h
    cases ht with
    | bitEnds => exact State.advanceBit_olat _
    | pinRises hp' => simp [hp', Phase.inBitLoop] at hloop
    | write _ hp' => exact absurd hp' hp
    | startBegins hp' => exact absurd hp' hp
    | _ => rfl
  level_eq := ht.level_cases.resolve_right fun ⟨hp, _⟩ => h.not_issue hp
  err_eq := ht.err_eq
  errCause_eq := ht.errCause_eq
  cur_eq := ht.cur_eq

theorem State.LoopFrame.trans {s t u : State} (h : s.LoopFrame t) (h' : t.LoopFrame u) : s.LoopFrame u where
  mode_eq := h'.mode_eq.trans h.mode_eq
  olat_eq := h'.olat_eq.trans h.olat_eq
  level_eq := h'.level_eq.trans h.level_eq
  err_eq := h'.err_eq.trans h.err_eq
  errCause_eq := h'.errCause_eq.trans h.errCause_eq
  cur_eq := h'.cur_eq.trans h.cur_eq

theorem loopFrame_of_after {es : List Level} {s t : State} (hs : s.released) (h : after (ticks es) s = some t) : s.LoopFrame t := by
  induction es generalizing s with
  | nil =>
    obtain rfl : s = t := Option.some.inj h
    exact ⟨rfl, rfl, rfl, rfl, rfl, rfl⟩
  | cons e es ih =>
    obtain ⟨r, hr, hrun⟩ := exists_effect_of_after h
    have hd : (s.draw (some e)).released := hs
    obtain ⟨hmode, holat, hlevel, herr, hcause, hcur⟩ := hr.loopFrame hd
    exact State.LoopFrame.trans ⟨hmode, holat, hlevel, herr, hcause, hcur⟩ (ih (hr.released hd) hrun)

/-! ### One pulse (43_edge_sampler.md R169) -/

namespace Pulse

/-- The bit that a pulse sends: 1 exactly where it is high for more than 40 ticks (43_edge_sampler.md R169). -/
def bit (p : Pulse) : Level := decide (40 < p.high)

@[simp] theorem levels_length (p : Pulse) : p.levels.length = p.high + p.low := by
  simp [levels]

/-- The levels of a clean pulse as the bit loop meets them: the rise, 39 ticks, the sample, the rest of a long high, the fall that ends
the bit in tick max(high, 41), and the lows after it. -/
theorem clean.levels_eq {p : Pulse} (h : p.clean) :
    ∃ fs, fs.length = 39 ∧ p.levels = true :: ((fs ++ [p.bit]) ++ List.replicate (p.high - 41) true) ++
      false :: List.replicate (p.high + p.low - (max p.high 41 + 1)) false := by
  obtain ⟨hhigh, hlow, hshort⟩ := h
  have hrise : List.replicate p.high true = true :: List.replicate (p.high - 1) true := by
    rw [← List.replicate_succ, Nat.sub_add_cancel hhigh]
  obtain hlong | hle := Nat.lt_or_ge 40 p.high
  · have hbit : p.bit = true := decide_eq_true hlong
    have htrue : List.replicate (p.high - 1) true = List.replicate 39 true ++ true :: List.replicate (p.high - 41) true := by
      exact (List.eq_replicate_iff.2 ⟨by simp; omega, by simp⟩).symm
    have hfalse : List.replicate p.low false = false :: List.replicate (p.high + p.low - (max p.high 41 + 1)) false := by
      rw [← List.replicate_succ]
      congr 1
      omega
    exact ⟨List.replicate 39 true, List.length_replicate, by simp [levels, hbit, hrise, htrue, hfalse]⟩
  · have hbit : p.bit = false := decide_eq_false hle.not_gt
    have hfalse : List.replicate p.low false = List.replicate (40 - p.high) false ++
        false :: false :: List.replicate (p.high + p.low - (max p.high 41 + 1)) false := by
      exact (List.eq_replicate_iff.2 ⟨by simp; omega, by simp⟩).symm
    refine ⟨List.replicate (p.high - 1) true ++ List.replicate (40 - p.high) false, by simp; omega, ?_⟩
    have hshort' : p.high - 41 = 0 := by omega
    simp [levels, hbit, hrise, hfalse, hshort']

end Pulse

/-- The bit loop waits for a rise in IN mode. -/
structure State.Listening (s : State) : Prop where
  legal : s.params.Legal
  input : s.mode = .input
  busy : s.busy = true
  phase : s.phase = .capWaitLow

/-- `t` waits for the end of the bit that the pulse `p` sends in `s`, one tick before the fall is seen. -/
structure State.Received (s : State) (p : Pulse) (t : State) : Prop where
  params_eq : t.params = s.params
  input : t.mode = .input
  busy : t.busy = true
  phase : t.phase = .capWaitHigh
  byteIdx_eq : t.byteIdx = s.byteIdx
  bitIdx_eq : t.bitIdx = s.bitIdx
  data_eq : t.data = (s.storeBit p.bit).data
  nextCnt_eq : t.nextCnt = max p.high 41 % s.params.cntRange

section
variable {s : State} {p : Pulse} (hs : s.Listening) (hp : p.clean)
include hs hp

/-- Through tick max(high, 41) of a clean pulse the loop receives its bit. -/
theorem after_ticks_received :
    ∃ es d, p.levels = es ++ false :: List.replicate (p.high + p.low - (es.length + 1)) false ∧ es.length = max p.high 41 ∧
      after (ticks es) s = some d ∧ s.Received p d := by
  obtain ⟨hlegal, hmode, hbusy, hphase⟩ := hs
  obtain ⟨fs, hfs, hlevels⟩ := hp.levels_eq
  have hlen : (true :: ((fs ++ [p.bit]) ++ List.replicate (p.high - 41) true)).length = max p.high 41 := by
    simp [hfs]; omega
  have hrun := after_ticks_sampled (s := s.draw (some true)) (fs := fs ++ [p.bit]) (gs := List.replicate (p.high - 41) true) hlegal
    (by simp [hfs, Config.sampleUs]) fun e he => (State.lineWith_input hmode e).trans (List.eq_of_mem_replicate he)
  have hline : ((s.draw (some true)).detectRise.counted (fs ++ [p.bit])).line = p.bit := by
    refine (State.line_input (s := (s.draw (some true)).detectRise.counted (fs ++ [p.bit])) hmode).trans ?_
    simp [State.counted]
  refine ⟨_, _, hlen ▸ hlevels, hlen, (after_ticks_rise _ hphase (State.lineWith_input hmode true)).trans hrun, ?_⟩
  refine ⟨by simp, by simpa using hmode, by simpa using hbusy, by simp, by simp, by simp, by simp [hline], ?_⟩
  simp only [State.nextCnt, State.counted_cnt, State.counted_params, State.sampled_cnt, State.sampled_params, State.detectRise_cnt,
    State.detectRise_params, State.draw_params, Nat.mod_add_mod]
  congr 1
  simp [hfs]
  omega

end

namespace State.Received
variable {s d : State} {p : Pulse} (h : s.Received p d)
include h

theorem lastBit_eq : d.lastBit = s.lastBit := by
  rw [State.lastBit, h.byteIdx_eq, h.bitIdx_eq, State.lastBit]

theorem bitNo_eq : d.bitNo = s.bitNo := by
  rw [State.bitNo, h.byteIdx_eq, h.bitIdx_eq, State.bitNo]

/-- The line is low in the next tick where ENV's level is. -/
theorem line_low : (d.draw (some false)).line = false := State.line_input (s := d.draw (some false)) h.input

/-- A fall after the last bit completes the capture. -/
theorem completes (hlast : s.lastBit = true) : TickEffect (d.draw (some false)) (d.draw (some false)).count.completeOk :=
  .captureEnds h.phase h.line_low (h.lastBit_eq.trans hlast)

/-- A fall after any other bit, and the lows after it, take the loop to the next bit. -/
theorem after_ticks_lows (hs : s.Listening) (hlast : s.lastBit = false) (n : Nat) :
    ∃ t, after (ticks (false :: List.replicate n false)) d = some t ∧ t.Listening ∧ t.params = s.params ∧ t.bitNo = s.bitNo + 1 ∧
      t.data = (s.storeBit p.bit).data := by
  have hend : TickEffect (d.draw (some false)) (d.draw (some false)).count.advanceBit :=
    .bitEnds h.phase h.line_low (h.lastBit_eq.trans hlast)
  have hinput : (d.draw (some false)).count.advanceBit.mode = .input := by simpa using h.input
  have hlows := after_ticks_watching (s := (d.draw (some false)).count.advanceBit) (l := false) (es := List.replicate n false)
    (.inl ⟨by simp, rfl⟩) (fun e he => (State.lineWith_input hinput e).trans (List.eq_of_mem_replicate he))
    fun _ => by simpa using (d.draw (some false)).nextCnt_lt
  have hno : (d.draw (some false)).count.advanceBit.bitNo = s.bitNo + 1 := by
    rw [State.advanceBit_bitNo (s := (d.draw (some false)).count) (h.lastBit_eq.trans hlast), ← h.bitNo_eq]
    rfl
  refine ⟨_, (after_ticks_effect _ hend).trans hlows, ⟨?_, hinput, ?_, by simp⟩, ?_, hno, ?_⟩
  · simpa [h.params_eq] using hs.legal
  · simpa using h.busy
  · simpa using h.params_eq
  · simpa using h.data_eq

end State.Received

section
variable {s : State} {p : Pulse} (hs : s.Listening) (hp : p.clean)
include hs hp

/-- A clean pulse that does not send the last bit takes the loop to the next one. -/
theorem after_ticks_pulse (hlast : s.lastBit = false) :
    ∃ t, after (ticks p.levels) s = some t ∧ t.Listening ∧ t.params = s.params ∧ t.bitNo = s.bitNo + 1 ∧
      t.data = (s.storeBit p.bit).data := by
  obtain ⟨es, d, hlevels, -, hrun, hd⟩ := after_ticks_received hs hp
  obtain ⟨t, hlows, ht⟩ := hd.after_ticks_lows hs hlast (p.high + p.low - (es.length + 1))
  exact ⟨t, hlevels ▸ after_ticks_trans hrun hlows, ht⟩

end

/-! ### The whole loop (43_edge_sampler.md R169) -/

/-- From `s` the pulses `ps` have been received, and `t` is the completed state. -/
structure State.Decoded (s : State) (ps : List Pulse) (t : State) : Prop where
  busy : t.busy = false
  phase : t.phase = .idle
  ok : t.ok = true
  last : t.lastBit = true
  cnt : ∀ p, ps.getLast? = some p → t.cnt = max p.high 41 % s.params.cntRange
  kept : ∀ k, k < s.bitNo → bitAt t.data k = bitAt s.data k
  bits : ∀ k p, ps[k]? = some p → bitAt t.data (s.bitNo + k) = p.bit

namespace State.Decoded
variable {s t u : State} {p : Pulse} {ps : List Pulse}

/-- The loop after its last bit: the capture is complete with that bit stored. -/
theorem last_bit {d : State} (hd : s.Received p d) (hlast : s.lastBit = true) :
    s.Decoded [p] (d.draw (some false)).count.completeOk where
  busy := rfl
  phase := rfl
  ok := rfl
  last := hd.lastBit_eq.trans hlast
  cnt q hq := by
    obtain rfl : p = q := by simpa using hq
    exact hd.nextCnt_eq
  kept k hk := by
    have hlt := s.bitNo_lt
    rw [State.completeOk_data, State.count_data, State.draw_data, hd.data_eq, s.bitAt_storeBit p.bit (by omega), if_neg hk.ne]
  bits k q hq := by
    obtain ⟨rfl, rfl⟩ : k = 0 ∧ p = q := by
      cases k <;> simp_all
    rw [Nat.add_zero, State.completeOk_data, State.count_data, State.draw_data, hd.data_eq, s.bitAt_storeBit p.bit s.bitNo_lt, if_pos rfl]

/-- A bit stored, and then the rest of the loop. -/
theorem cons (hps : ps ≠ []) (hparams : t.params = s.params) (hno : t.bitNo = s.bitNo + 1)
    (hdata : t.data = (s.storeBit p.bit).data) (h : t.Decoded ps u) : s.Decoded (p :: ps) u where
  busy := h.busy
  phase := h.phase
  ok := h.ok
  last := h.last
  cnt q hq := by
    rw [List.getLast?_cons_of_ne_nil hps] at hq
    rw [← hparams]
    exact h.cnt q hq
  kept k hk := by
    have hlt := s.bitNo_lt
    rw [h.kept k (by omega), hdata, s.bitAt_storeBit p.bit (by omega), if_neg hk.ne]
  bits k q hq := by
    cases k with
    | zero =>
      obtain rfl : p = q := by simpa using hq
      rw [Nat.add_zero, h.kept _ (by omega), hdata, s.bitAt_storeBit p.bit s.bitNo_lt, if_pos rfl]
    | succ k =>
      rw [← h.bits k q (by simpa using hq), hno]
      congr 1
      omega

end State.Decoded

/-- The loop receives clean pulses one by one, and the fall of the last completes it. -/
theorem pulses_complete {s : State} {ps : List Pulse} (hs : s.Listening) (hps : ps ≠ []) (hlen : s.bitNo + ps.length = 40)
    (hclean : ∀ p ∈ ps, p.clean) : ∃ t, s.completesIn (ps.flatMap Pulse.levels) (loopTicks ps) t ∧ s.Decoded ps t := by
  match ps with
  | [] => exact absurd rfl hps
  | [p] =>
    have hlast : s.lastBit = true := State.lastBit_iff_bitNo.2 (by simpa using hlen)
    obtain ⟨es, d, hlevels, hes, hrun, hd⟩ := after_ticks_received hs (hclean p (by simp))
    refine ⟨_, ⟨es, false, _, d, (List.append_nil p.levels).trans hlevels, congrArg (· + 1) hes, hrun, hd.busy, hd.completes hlast⟩,
      .last_bit hd hlast⟩
  | p :: q :: ps =>
    simp only [List.length_cons] at hlen
    have hlast : s.lastBit = false := Bool.eq_false_iff.2 fun h => by
      have := State.lastBit_iff_bitNo.1 h
      omega
    obtain ⟨t, hrun, ht, hparams, hno, hdata⟩ := after_ticks_pulse hs (hclean p (by simp)) hlast
    obtain ⟨u, hu, hdec⟩ := pulses_complete (ps := q :: ps) ht (by simp) (by simp only [List.length_cons]; omega)
      fun r hr => hclean r (by simp_all)
    refine ⟨u, ?_, hdec.cons (by simp) hparams hno hdata⟩
    have hall := hu.prepend hrun
    rwa [Pulse.levels_length, ← List.flatMap_cons] at hall
termination_by ps.length

/-- A clean waveform completes the loop and is decoded (43_edge_sampler.md R169). -/
theorem waveform_completes {s : State} {lead : Nat} {ps : List Pulse} (hs : s.Listening) (h0 : s.bitNo = 0) (hlead : 1 ≤ lead)
    (hlen : ps.length = 40) (hclean : ∀ p ∈ ps, p.clean) :
    ∃ t, s.completesIn (waveform lead ps) (lead + loopTicks ps) t ∧ s.Decoded ps t := by
  have hlow : after (ticks (List.replicate lead false)) s = some (s.counted (List.replicate lead false)) := by
    refine after_ticks_watching (.inl ⟨hs.phase, rfl⟩)
      (fun e he => (State.lineWith_input hs.input e).trans (List.eq_of_mem_replicate he)) fun hnil => ?_
    simp at hnil
    omega
  have hs' : (s.counted (List.replicate lead false)).Listening := ⟨hs.legal, hs.input, hs.busy, hs.phase⟩
  have hno : (s.counted (List.replicate lead false)).bitNo = 0 := h0
  obtain ⟨t, ht, hdec⟩ := pulses_complete hs' (List.ne_nil_of_length_pos (by omega)) (by omega) hclean
  refine ⟨t, ?_, ⟨hdec.busy, hdec.phase, hdec.ok, hdec.last, hdec.cnt, hdec.kept, hdec.bits⟩⟩
  have hall := ht.prepend hlow
  rwa [List.length_replicate] at hall

/-- Settles O39: the loop receives the pulses one by one and completes with the fall of the last. -/
theorem cleanWaveformDecodes : Obligations.CleanWaveformDecodes := by
  intro s lead ps hlegal hm hb hp hj hi hlead hlen hclean
  have h0 : s.bitNo = 0 := by simp [State.bitNo, hj, hi]
  obtain ⟨t, ht, hdec⟩ := waveform_completes ⟨hlegal, hm, hb, hp⟩ h0 hlead hlen hclean
  have hreleased : s.released := ⟨hm, .inr (by rw [hp]; rfl)⟩
  obtain ⟨hmode, holat, hlevel, herr, hcause, hcur⟩ := loopFrame_of_after hreleased ht.run
  obtain ⟨hbyte, hbit⟩ := State.lastBit_iff.1 hdec.last
  refine ⟨⟨t, ht.run, hdec.busy, hdec.phase, hdec.ok, hbyte, hbit, hmode, holat, hlevel, herr, hcause, hcur, hdec.cnt, ?_⟩,
    fun n hn => ht.busy hn⟩
  have hbits := hdec.bits
  simp only [h0, Nat.zero_add] at hbits
  exact hbits

/-! ### The whole READ (43_edge_sampler.md R167) -/

/-- Settles O40: START's signal leaves READ at the start of the bit loop with the line released, and the loop decodes the waveform. -/
theorem readDecodesCleanWaveform : Obligations.ReadDecodesCleanWaveform := by
  intro s es lead ps hlegal hp hb hi hlen hlead hps hclean
  have hsignal := after_ticks_startSignal hlegal hp (.inr hi) hlen
  rw [State.releasePin_of_read (s := s.signalHigh es 30) (Cur.isRead_iff.2 hi)] at hsignal
  obtain ⟨t, ht, hdec⟩ := waveform_completes
    (s := ({ s.signalHigh es 30 with mode := .input } : State).beginCapture) ⟨hlegal, rfl, hb, rfl⟩ rfl hlead hps hclean
  obtain ⟨hmode, holat, hlevel, herr, hcause, -⟩ := loopFrame_of_after ⟨rfl, .inr rfl⟩ ht.run
  have hread := ht.prepend hsignal
  rw [← Nat.add_assoc] at hread
  refine ⟨⟨t, hread.run, hdec.busy, hdec.phase, hdec.ok, hmode, holat, hlevel, herr, hcause, hdec.cnt, fun k p hk => ?_⟩,
    fun n hn => hread.busy hn⟩
  have hbit := hdec.bits k p hk
  exact (congrArg (bitAt t.data) (Nat.zero_add k).symm).trans hbit

end Sys2Proof.Machine
end

section
/-! SUPPORT. The command error (spec/60_exceptions.md R200-R204, R210): the CMD writes that raise it, the writes that clear it, and that
nothing else does either. -/

namespace Sys2Proof.Machine

/-! ### The CMD writes that are errors (60_exceptions.md R201-R204) -/

/-- The first cause is kept: a second error is without effect (60_exceptions.md R201). -/
@[simp] theorem State.cmdError_cmdError (s : State) (c d : ErrCause) : (s.cmdError c).cmdError d = s.cmdError c :=
  State.cmdError_of_err _ d (s.cmdError_err c)

/-- A CMD write that is an error does nothing but report it, and BUSY goes before the decoding (60_exceptions.md R204). -/
theorem State.writeCmd_of_error {s : State} {w : Word} (h : s.busy = true ∨ ∃ why, decode w = .illegal why) :
    s.writeCmd w = s.cmdError (if s.busy then .busy else .illegal) := by
  cases hb : s.busy with
  | true => exact State.writeCmd_of_busy w hb
  | false => exact State.writeCmd_of_illegal hb (h.resolve_left (by simp [hb]))

/-- Settles O8: such a write is a command error, which keeps BUSY, so that a second one is an error on top of a pending one. -/
theorem errorPriority : Obligations.ErrorPriority := by
  intro s w hw
  rw [State.writeCmd_of_error hw]
  refine ⟨s.cmdError_err _, s.cmdError_errCause _, ?_, fun v hv => ?_⟩
  · rw [s.cmdError_err, s.cmdError_errCause, State.cmdError_eq]
  · rw [State.writeCmd_of_error (by rwa [State.cmdError_busy]), State.cmdError_cmdError]

/-- HOST's CMD write as a run of one step (20_memory.md R55). -/
theorem after_writeCmd (s : State) (w : Word) : after [memWrite s 0x00 w] s = some { s.writeCmd w with draws := s.draws + 1 } :=
  after_memWrite s w (by decide) (by decide)

/-- A run of CMD writes takes its first write and goes on from there. -/
theorem after_cmdWrites_cons (s : State) (w : Word) (ws : List Word) :
    after ((w :: ws).map (memWrite s 0x00)) s = after (ws.map (memWrite s 0x00)) { s.writeCmd w with draws := s.draws + 1 } := by
  rw [List.map_cons, ← List.singleton_append, after_append, after_writeCmd, Option.bind_some]

/-- While BUSY = 1 and an error is pending, CMD writes are ignored (60_exceptions.md R201, R202). -/
theorem after_cmdWrites_ignored {s : State} (hb : s.busy = true) (he : s.err = true) (ws : List Word) :
    after (ws.map (memWrite s 0x00)) s = some { s with draws := s.draws + ws.length } := by
  induction ws generalizing s with
  | nil => rfl
  | cons w ws ih =>
    rw [after_cmdWrites_cons, State.writeCmd_of_busy w hb, State.cmdError_of_err _ _ he, List.length_cons, Nat.add_comm ws.length,
      ← Nat.add_assoc]
    exact ih (s := { s with draws := s.draws + 1 }) hb he

/-- Settles O9: the first write leaves an error pending, and the others are ignored. -/
theorem busyWritesOnlyReport : Obligations.BusyWritesOnlyReport := by
  intro s ws hb hne
  obtain ⟨w, ws, rfl⟩ := List.exists_cons_of_ne_nil hne
  rw [after_cmdWrites_cons, State.writeCmd_of_busy w hb, State.cmdError_eq, List.length_cons, Nat.add_comm ws.length, ← Nat.add_assoc]
  exact after_cmdWrites_ignored
    (s := { s with err := true, errCause := if s.err then s.errCause else .busy, draws := s.draws + 1 }) hb rfl ws

/-- Settles O10: the write is a command error, which writes neither BUSY nor PHASE. -/
theorem illegalWriteStaysIdle : Obligations.IllegalWriteStaysIdle := by
  intro s w hb hp hill
  have hrun := after_writeCmd s w
  rw [State.writeCmd_of_illegal hb (illegal_iff_not_cmd.2 hill), State.cmdError_eq] at hrun
  exact ⟨_, hrun, hb, hp, rfl, fun he => by simp [he], rfl⟩

/-! ### The steps that write ERR and ERRCAUSE (60_exceptions.md R200, R210) -/

namespace State.sameBlock
section
variable {s t : State} (h : s.sameBlock t)
include h

theorem err_eq : s.err = t.err := by
  obtain ⟨-, herr, -⟩ := h
  exact herr

theorem errCause_eq : s.errCause = t.errCause := by
  obtain ⟨-, -, hcause⟩ := h
  exact hcause

end
end State.sameBlock

/-- ERR and ERRCAUSE are written by Reset, by a STATUS write with bit 4 = 1 and by a CMD write that is an error, and by nothing else
(60_exceptions.md R200, R210). -/
theorem StepEffect.err_cases {s t : State} (h : StepEffect s t) :
    (t.err = s.err ∧ t.errCause = s.errCause) ∨
      ((∃ rest, s.turns = .reset :: rest) ∧ t.err = false) ∨
      (∃ v, s.writing 0x04 v ∧ v.getLsbD 4 = true ∧ t.err = false) ∨
      (∃ w, s.writing 0x00 w ∧ (s.busy = true ∨ ∃ why, decode w = .illegal why) ∧
        t.sameBlock (s.cmdError (if s.busy then .busy else .illegal))) := by
  cases h with
  | tick d _ hd ht => exact .inl ⟨ht.err_eq.trans hd.err_eq, ht.errCause_eq.trans hd.errCause_eq⟩
  | reset hr ht => exact .inr (.inl ⟨hr, ht.err_eq⟩)
  | none ht => exact .inl ⟨ht.err_eq, ht.errCause_eq⟩
  | clears v hw hv ht => exact .inr (.inr (.inl ⟨v, hw, hv, ht.err_eq⟩))
  | raisesBusy w hw hb ht => exact .inr (.inr (.inr ⟨w, hw, .inl hb, by rwa [if_pos hb]⟩))
  | raisesIllegal w why hw hb hwhy ht => exact .inr (.inr (.inr ⟨w, hw, .inr ⟨why, hwhy⟩, by simpa [hb] using ht⟩))
  | accepts _ _ _ _ _ ht => exact .inl ⟨ht.err_eq, ht.errCause_eq⟩

/-- Settles O11: the clearing write by `writeReg`, and every other step by the writers of ERR: an error on top of a pending one keeps it. -/
theorem onlyStatusWriteOrResetClears : Obligations.OnlyStatusWriteOrResetClears := by
  refine ⟨fun s v hv => ?_, fun s t h he => ?_⟩
  · rw [after_memWrite s v (by decide) (by decide), State.hostWrite, s.writeReg_status_clears hv, State.clearErr]
  · obtain ⟨herr, hcause⟩ | ⟨hr, -⟩ | ⟨v, ⟨rest, hu⟩ | ⟨rest, ops, hu, hp⟩, hv, -⟩ | ⟨w, -, -, ht⟩ := (step_effect h).err_cases
    · exact .inl ⟨herr.trans he, hcause⟩
    · exact .inr (.inl hr)
    · exact .inr (.inr (.inl ⟨v, rest, hv, hu⟩))
    · exact .inr (.inr (.inr ⟨v, rest, ops, hv, hu, hp⟩))
    · rw [State.cmdError_of_err _ _ he] at ht
      exact .inl ⟨ht.err_eq.trans he, ht.errCause_eq⟩

/-- Settles O12: of the writers of ERR, only a CMD write that is an error leaves ERR = 1 where ERR was 0. -/
theorem onlyCommandWritesRaise : Obligations.OnlyCommandWritesRaise := by
  intro s t h h0 h1
  obtain ⟨herr, -⟩ | ⟨-, herr⟩ | ⟨v, -, -, herr⟩ | ⟨w, hw, hbad, ht⟩ := (step_effect h).err_cases
  · simp [herr, h0] at h1
  · simp [herr] at h1
  · simp [herr] at h1
  · have hcause : t.errCause = if s.busy then .busy else .illegal := by
      rw [ht.errCause_eq, State.cmdError_of_not_err _ _ h0]
    refine ⟨fun hb => by rw [hcause, if_pos hb], fun hb => by simp [hcause, hb], ?_⟩
    obtain ⟨rest, hu⟩ | ⟨rest, ops, hu, hp⟩ := hw
    · exact .inl ⟨w, rest, hu, hbad⟩
    · exact .inr ⟨w, rest, ops, hu, hp, hbad⟩

end Sys2Proof.Machine
end

section
/-! SUPPORT. Reset: every element of the state at its reset value, and the end of any command (spec/70_reset_and_hazards.md R230-R232). -/

namespace Sys2Proof.Machine

/-! ### The ticks after Reset (70_reset_and_hazards.md R230, R232) -/

/-- After Reset, ticks only count. -/
theorem after_ticks_applyReset (s : State) (es : List Level) :
    after (ticks es) s.applyReset = some (s.applyReset.counted es) :=
  after_ticks_idle rfl s.params.cntRange_pos es

/-- Reset, and any ticks after it, as one run. -/
theorem after_reset_ticks (s : State) (es : List Level) :
    after (.reset :: ticks es) s = some (s.applyReset.counted es) := by
  rw [after_cons]
  exact after_ticks_applyReset s es

/-- In the first tick after Reset the counter becomes 1 (70_reset_and_hazards.md R230). -/
theorem State.applyReset_counted_one {s : State} (hlegal : s.params.Legal) (e : Level) :
    (s.applyReset.counted [e]).cnt = 1 := by
  have hrange : s.applyReset.cnt + [e].length < s.params.cntRange :=
    lt_trans (by simp) hlegal.count_lt
  exact State.counted_cnt_of_lt hrange

/-- Settles O46: the step is Reset's record of values, and a tick after it only counts. -/
theorem resetValues : Obligations.ResetValues := by
  intro s rest h
  have hdata (j : Fin 5) : (({ s with turns := rest } : State).applyReset).data[j.val] = 0x00 := by simp
  refine ⟨_, step_reset h, ⟨rfl, rfl, rfl, hdata, rfl, rfl, rfl, rfl, rfl, rfl, rfl, rfl, rfl, rfl, rfl⟩, .refl _, rfl, rfl, rfl,
    fun hlegal e => ?_⟩
  have hcnt := State.applyReset_counted_one (s := { s with turns := rest }) hlegal e
  refine ⟨_, after_ticks_applyReset _ [e], hcnt, ?_⟩
  rw [← hcnt]
  exact .refl _

/-- Settles O47: Reset leaves SWSI idle, and the ticks after it write nothing but the counter. -/
theorem resetEndsHang : Obligations.ResetEndsHang :=
  fun s es _ => ⟨_, after_reset_ticks s es, rfl, rfl, rfl, rfl, rfl, State.lineWith_input rfl⟩

end Sys2Proof.Machine
end

section
/-! SUPPORT. How long commands last: a tick comes at most one closer to its command's completion (spec/70_reset_and_hazards.md R250). -/

namespace Sys2Proof.Machine

/-! ### The fewest ticks still to come (70_reset_and_hazards.md R250) -/

/-- The fewest ticks in which the bit loop receives a bit: the rise, T_SAMPLE_US ticks to the sample, and the fall
(43_edge_sampler.md R164-R166). -/
def minBitTicks : Nat := Config.sampleUs + 2

/-- The fewest ticks of the bit loop still to come after the start signal of the command in CUR: READ's 40 bits, and none for START
(42_start_signal.md R142). -/
def Cur.minLoopTicks (c : Cur) : Nat := if c.isRead then minBitTicks * Config.nBits else 0

theorem Cur.minLoopTicks_of_not_read {c : Cur} (hr : c.isRead = false) : c.minLoopTicks = 0 := by
  simp [minLoopTicks, hr]

theorem Cur.minLoopTicks_of_read {c : Cur} (hr : c.isRead = true) : c.minLoopTicks = minBitTicks * Config.nBits := if_pos hr

namespace State

/-- The fewest ticks still to come in which the command in progress can complete: R250's table in ISSUE, and in a later phase what is left
of its timed waits and of the bits not yet received. -/
def minTicksLeft (s : State) : Nat :=
  match s.phase with
  | .idle => 0
  | .issue => s.cur.instr?.elim 0 (minTicks s.params)
  | .delayWait => s.cur.count - s.cnt
  | .levelWait => 1
  | .startLow => s.params.startLowUs - s.cnt + (Config.startHighUs + s.cur.minLoopTicks)
  | .startHigh => Config.startHighUs - s.cnt + s.cur.minLoopTicks
  | .capWaitLow => minBitTicks * (Config.nBits - s.bitNo)
  | .capDelay => Config.sampleUs - s.cnt + (1 + minBitTicks * (Config.nBits - (s.bitNo + 1)))
  | .capWaitHigh => 1 + minBitTicks * (Config.nBits - (s.bitNo + 1))

section
variable {s : State}

theorem minTicksLeft_idle (hp : s.phase = .idle) : s.minTicksLeft = 0 := by
  simp [minTicksLeft, hp]

theorem minTicksLeft_issue {i : Instr} (hp : s.phase = .issue) (hi : s.cur.instr? = some i) :
    s.minTicksLeft = minTicks s.params i := by
  simp [minTicksLeft, hp, hi]

theorem minTicksLeft_delayWait (hp : s.phase = .delayWait) : s.minTicksLeft = s.cur.count - s.cnt := by
  simp [minTicksLeft, hp]

theorem minTicksLeft_levelWait (hp : s.phase = .levelWait) : s.minTicksLeft = 1 := by
  simp [minTicksLeft, hp]

theorem minTicksLeft_startLow (hp : s.phase = .startLow) :
    s.minTicksLeft = s.params.startLowUs - s.cnt + (Config.startHighUs + s.cur.minLoopTicks) := by
  simp [minTicksLeft, hp]

theorem minTicksLeft_startHigh (hp : s.phase = .startHigh) : s.minTicksLeft = Config.startHighUs - s.cnt + s.cur.minLoopTicks := by
  simp [minTicksLeft, hp]

theorem minTicksLeft_capWaitLow (hp : s.phase = .capWaitLow) : s.minTicksLeft = minBitTicks * (Config.nBits - s.bitNo) := by
  simp [minTicksLeft, hp]

theorem minTicksLeft_capDelay (hp : s.phase = .capDelay) :
    s.minTicksLeft = Config.sampleUs - s.cnt + (1 + minBitTicks * (Config.nBits - (s.bitNo + 1))) := by
  simp [minTicksLeft, hp]

theorem minTicksLeft_capWaitHigh (hp : s.phase = .capWaitHigh) :
    s.minTicksLeft = 1 + minBitTicks * (Config.nBits - (s.bitNo + 1)) := by
  simp [minTicksLeft, hp]

/-- In a timed wait for `n` the ticks still to come are those up to `n` and then a number that counting leaves as it is. -/
theorem timedWait.minTicksLeft_eq {n : Nat} (hn : s.timedWait n) :
    ∃ rest, s.minTicksLeft = n - s.cnt + rest ∧ s.count.minTicksLeft = n - s.nextCnt + rest := by
  obtain ⟨hp, rfl⟩ | ⟨hp, rfl⟩ | ⟨hp, rfl⟩ | ⟨hp, rfl⟩ := hn
  · exact ⟨0, minTicksLeft_delayWait hp, minTicksLeft_delayWait (s := s.count) hp⟩
  · exact ⟨_, minTicksLeft_startLow hp, minTicksLeft_startLow (s := s.count) hp⟩
  · exact ⟨_, minTicksLeft_startHigh hp, minTicksLeft_startHigh (s := s.count) hp⟩
  · exact ⟨_, minTicksLeft_capDelay hp, minTicksLeft_capDelay (s := s.count) hp⟩

/-- While a wait on the line lasts, the ticks still to come stay the same. -/
theorem watching.minTicksLeft_count {l : Level} (hw : s.watching l) : s.count.minTicksLeft = s.minTicksLeft := by
  obtain ⟨hp, -⟩ | ⟨hp, -⟩ | ⟨hp, -⟩ := hw
  · exact (minTicksLeft_capWaitLow (s := s.count) hp).trans (minTicksLeft_capWaitLow hp).symm
  · exact (minTicksLeft_capWaitHigh (s := s.count) hp).trans (minTicksLeft_capWaitHigh hp).symm
  · exact (minTicksLeft_levelWait (s := s.count) hp).trans (minTicksLeft_levelWait hp).symm

end
end State

/-! ### No tick does the work of two -/

/-- A tick comes at most one closer to the command's completion: it ends a timed wait only where CNT has reached the bound, and a bit only
after its rise, its sample and its fall. -/
theorem TickEffect.minTicksLeft_le {s t : State} (h : TickEffect s t) : s.minTicksLeft ≤ t.minTicksLeft + 1 := by
  have hnext : s.nextCnt ≤ s.cnt + 1 := Nat.mod_le _ _
  cases h with
  | cfgOut hp hi | cfgIn hp hi | write _ hp hi | sense hp hi | timReset hp hi | delayZero hp hi | waitBegins _ hp hi
  | captureBegins hp hi => exact (State.minTicksLeft_issue hp hi).le
  | delayBegins n hp hi =>
    rw [State.minTicksLeft_issue hp hi, ← Cur.count_of_delay hi]
    exact le_rfl
  | startBegins hp hi =>
    rw [State.minTicksLeft_startLow (s := s.beginStart) rfl]
    obtain hi | hi := hi
    · rw [State.minTicksLeft_issue hp hi, State.beginStart_cur, Cur.minLoopTicks_of_not_read (Cur.not_isRead hi (by simp))]
      exact le_rfl
    · rw [State.minTicksLeft_issue hp hi, State.beginStart_cur, Cur.minLoopTicks_of_read (Cur.isRead_iff.2 hi)]
      exact le_rfl
  | idles hp =>
    rw [State.minTicksLeft_idle hp]
    exact Nat.zero_le _
  | waits n hn =>
    obtain ⟨rest, hs, ht⟩ := hn.minTicksLeft_eq
    omega
  | watches hw =>
    have hwatch : s.watching s.line := by
      obtain ⟨hp, hl⟩ | hw := hw
      · exact .inr (.inr ⟨hp, hl⟩)
      · exact hw.imp_right .inl
    exact hwatch.minTicksLeft_count.ge.trans (Nat.le_succ _)
  | delayEnds hp hle =>
    rw [State.minTicksLeft_delayWait hp]
    omega
  | waitEnds hp => exact (State.minTicksLeft_levelWait hp).trans_le (Nat.le_add_left ..)
  | pinRises hp hle =>
    rw [State.minTicksLeft_startLow hp]
    change _ ≤ Config.startHighUs + s.cur.minLoopTicks + 1
    omega
  | startEnds hp hle hr =>
    rw [State.minTicksLeft_startHigh hp]
    have hloop := Cur.minLoopTicks_of_not_read hr
    omega
  | readReleases hp hle hr =>
    rw [State.minTicksLeft_startHigh hp]
    change _ ≤ minBitTicks * Config.nBits + 1
    have hloop := Cur.minLoopTicks_of_read hr
    omega
  | lineRises hp =>
    rw [State.minTicksLeft_capWaitLow hp]
    change 42 * (40 - s.bitNo) ≤ 40 + (1 + 42 * (40 - (s.bitNo + 1))) + 1
    omega
  | samples hp hle =>
    rw [State.minTicksLeft_capDelay hp]
    change _ ≤ 1 + minBitTicks * (Config.nBits - (s.bitNo + 1)) + 1
    omega
  | bitEnds hp _ hlast =>
    have hno : s.count.advanceBit.bitNo = s.bitNo + 1 := State.advanceBit_bitNo (s := s.count) hlast
    rw [State.minTicksLeft_capWaitHigh hp, State.minTicksLeft_capWaitLow (State.advanceBit_phase _), hno, Nat.add_comm]
  | captureEnds hp _ hlast =>
    rw [State.minTicksLeft_capWaitHigh hp, State.lastBit_iff_bitNo.1 hlast]
    exact Nat.le_add_left ..

/-- Fewer ticks than `minTicksLeft` do not complete the command. -/
theorem busy_of_lt_minTicksLeft {s t : State} {es : List Level} (h : after (ticks es) s = some t) (hb : s.busy = true)
    (hlt : es.length < s.minTicksLeft) : t.busy = true := by
  induction es generalizing s with
  | nil =>
    obtain rfl : s = t := Option.some.inj h
    exact hb
  | cons e es ih =>
    obtain ⟨r, hr, hrun⟩ := exists_effect_of_after h
    have hle : s.minTicksLeft ≤ r.minTicksLeft + 1 := hr.minTicksLeft_le
    have hlt' : es.length < r.minTicksLeft := Nat.lt_of_succ_lt_succ (hlt.trans_le hle)
    obtain ⟨hbusy, -⟩ | ⟨-, hidle⟩ := hr.busy_cases
    · exact ih hrun (hbusy.trans hb) hlt'
    · simp [State.minTicksLeft_idle hidle] at hlt'

/-! ### The commands with no wait on the line (70_reset_and_hazards.md R250) -/

/-- One tick completes a command whose issue actions complete it. -/
theorem not_busy_of_one_tick {s t : State} {i : Instr} {es : List Level} (h : after (ticks es) s = some t) (hlen : es.length = 1)
    (hp : s.phase = .issue) (hi : s.cur.instr? = some i)
    (hdone : ∀ e, ∃ u, exec i (s.draw (some e)) = .next u ∧ u.busy = false) : t.busy = false := by
  obtain ⟨e, rfl⟩ := List.length_eq_one_iff.1 hlen
  obtain ⟨u, hexec, hu⟩ := hdone e
  obtain rfl : u = t := Option.some.inj ((after_ticks_issue [] hp hi hexec).symm.trans h)
  exact hu

/-- Settles O52: fewer ticks than the table's are fewer than `minTicksLeft`; and a command with no wait on the line ends with its issue
actions, with DELAY's timed wait or with the start signal. -/
theorem commandDurations : Obligations.CommandDurations := by
  intro s t i es hlegal hp hb hi h
  refine ⟨fun hlt => busy_of_lt_minTicksLeft h hb ((State.minTicksLeft_issue hp hi).symm ▸ hlt), fun hlen hcapture hread hwait => ?_⟩
  cases i with
  | cfgOut | cfgIn | write | sense | timReset =>
    exact not_busy_of_one_tick h hlen hp hi fun _ => ⟨_, exec_issue _ _ hp, rfl⟩
  | delay n =>
    have hrun := after_ticks_delay hp hi ((Cur.count_le_of_delay hi).trans_lt hlegal.count_lt) hlen
    obtain rfl := Option.some.inj (hrun.symm.trans h)
    rfl
  | start =>
    have hrun := after_ticks_startSignal hlegal hp (.inl hi) hlen
    rw [State.releasePin_of_start (s := s.signalHigh es 30) hi] at hrun
    obtain rfl := Option.some.inj (hrun.symm.trans h)
    rfl
  | waitWhile l => exact absurd rfl (hwait l)
  | capture => exact absurd rfl hcapture
  | read => exact absurd rfl hread

end Sys2Proof.Machine
end
